-- ==== Sys2Proof/Word.lean ====
section
/-! DEFINITION. The widths the codec works with (spec/00_scope.md R6): bytes of a frame, 4-bit logical
addresses, 16-bit physical addresses and the 5-bit frame length of a request bundle. All values are
unsigned (R10). -/

namespace Sys2Proof

/-- A byte of a frame; an opcode is one too (R6: opcode width 8 bits). -/
abbrev Byte := BitVec 8

/-- A 4-bit field: a logical address, a length class, a command code, a status code. -/
abbrev Nibble := BitVec 4

/-- A 16-bit physical address (R6). -/
abbrev PhysAddr := BitVec 16

/-- The 5-bit frame length of a DECODE request, 0 to 31 (spec/30_encoding.md R68). -/
abbrev FrameLen := BitVec 5

end Sys2Proof
end

