-- ==== Sys2Proof/Config.lean ====
section
/-! DEFINITION. What is fixed for one codec: the sizes and constants of spec/00_scope.md R6 to R9, the record
types of the tables (spec/40_tables.md R100, R101), the configuration record that holds the parameters
of R7 and R8, the types of the transport boundary (spec/60_exceptions.md R262, spec/10_state.md R24), and the
environment's free draws, which are uninterpreted. -/

namespace Sys2Proof

/-! ## Sizes and constants the source fixes (R6, R9) -/

/-- The longest frame, in bytes (R6, R60). -/
@[simp] abbrev maxFrame : Nat := 16

/-- The most operands a frame carries (R6, R64). -/
@[simp] abbrev maxPayload : Nat := 14

/-- The broadcast destination (R6, R62). -/
@[simp] abbrev broadcast : Nibble := 0xF

/-- The retry budget every builder writes (R9). -/
@[simp] abbrev defaultRetry : Byte := 5

/-- FEATURE_ABORT (R6, R66). -/
@[simp] abbrev opFeatureAbort : Byte := 0x00

/-- GIVE_DEVICE_VENDOR_ID (R6, R66). -/
@[simp] abbrev opGiveDeviceVendorId : Byte := 0x8C

/-- GET_MENU_LANGUAGE (R6, R66). -/
@[simp] abbrev opGetMenuLanguage : Byte := 0x91

/-! ## Display texts and descriptions -/

/-- The display texts. R7 leaves the type opaque (DESIGN CHOICE, safe, log 3). -/
abbrev DescText := String

/-- The result of DESCRIBE (R71, R103). -/
inductive Description where
  /-- The description table has this text for the opcode. -/
  | known (t : DescText)
  /-- The table has none: shown as SENTINEL_TEXT (R115). -/
  | unsupported
deriving DecidableEq, Repr

/-- The closed enumeration of feature-abort reasons (R75). -/
inductive Reason where
  | unrecognizedOpcode
  | wrongMode
  | cannotProvideSource
  | invalidOperand
  | refused
deriving DecidableEq, Repr

/-- REASON_TEXT, one text per reason (R7, R114). -/
structure ReasonTexts where
  unrecognizedOpcode  : DescText
  wrongMode           : DescText
  cannotProvideSource : DescText
  invalidOperand      : DescText
  refused             : DescText
deriving DecidableEq, Repr

/-! ## The tables -/

/-- One row of OPCODE_TABLE (R100). No bit packing is defined (R67). -/
structure OpcodeProperties where
  directedAllowed  : Bool
  broadcastAllowed : Bool
  lengthClass      : Nibble
deriving DecidableEq, Repr

/-- One row of LENGTH_CLASS_TABLE: inclusive bounds on the payload length (R101). -/
structure LengthClass where
  min : Nat
  max : Nat
deriving DecidableEq, Repr

/-- The parameters of R7 and R8, as plain data. OPCODE_TABLE and DESCRIPTION_TABLE list their rows by
opcode: a row not listed has R104's default, and where an opcode stands twice the first row counts
(DESIGN CHOICE, safe, log 2). LENGTH_CLASS_TABLE has exactly 16 entries (R101). -/
structure Config where
  opcodeTable               : List (Byte × OpcodeProperties)
  lengthClassTable          : Vector LengthClass 16
  descriptionTable          : List (Byte × DescText)
  sentinelText              : DescText
  reasonTexts               : ReasonTexts
  opActiveSource            : Byte
  opDeviceVendorId          : Byte
  opVendorCommand           : Byte
  opGiveDevicePowerStatus   : Byte
deriving DecidableEq, Repr

/-! ## Frames in flight and decode results -/

/-- The value the builders produce and TRANSMIT consumes (R70). `opcode` is `none` only for a ping. -/
structure TxRequest where
  initiator   : Nibble
  destination : Nibble
  opcode      : Option Byte
  operands    : List Byte
  retry       : Byte
deriving DecidableEq, Repr

/-- The four reasons DECODE rejects a frame for (R73, R140). -/
inductive DecodeError where
  | unsupportedOpcode
  | broadcastMismatch
  | directedMismatch
  | invalidPayloadLength
deriving DecidableEq, Repr

/-- A DecodeResult as DISPATCH reads it: without the description, which the bundle does not carry (R71). -/
inductive CarriedResult where
  | err     (k : DecodeError)
  | polling (initiator destination : Nibble)
  | message (initiator destination : Nibble) (opcode : Byte) (operands : List Byte)
deriving DecidableEq, Repr

/-! ## The transport boundary -/

/-- An error value of the transport. R7 leaves the type opaque; here it is a label the codec passes on
unchanged (DESIGN CHOICE, safe, log 3). -/
structure TransportErr where
  code : Nat
deriving DecidableEq, Repr, Inhabited

/-- What the environment answers a call with (R262). -/
inductive Answer (α : Type) where
  | ok  (a : α)
  | err (e : TransportErr)
deriving DecidableEq, Repr, Inhabited

/-- One draw of the environment: an answer, or none ever (R262, R264: it "may answer a call at any later point,
or never"). -/
inductive Draw (α : Type) where
  | answered (r : Answer α)
  | never
deriving DecidableEq, Repr, Inhabited

/-- One entry of HIST (spec/10_state.md R24): a transport call, its arguments and its answer. -/
inductive TransportEvent where
  | register    (la : Nibble) (r : Answer Unit)
  | getPhysAddr (r : Answer PhysAddr)
  | transmit    (req : TxRequest) (r : Answer Bool)
  | receive     (r : Answer (List Byte))
deriving DecidableEq, Repr

/-! ## Free draws

"Each answer is a free draw ... It may depend on HIST and on the call's arguments" (R262), and the environment may
never answer (R264). Where the state scripts no draw, the draw is one of these: an answer, or none ever. They have no
body, so nothing can evaluate them and every theorem holds whatever they are. The first argument counts the calls answered so far, so that a fresh
value is drawn each time (DESIGN CHOICE, safe, log 4). -/

/-- The free draw for `T.registerDevice(la)`. -/
opaque Config.freeRegister : Nat → List TransportEvent → Nibble → Draw Unit

/-- The free draw for `T.getPhysicalAddress()`. -/
opaque Config.freePhysAddr : Nat → List TransportEvent → Draw PhysAddr

/-- The free draw for `T.transmit(req)`. -/
opaque Config.freeTransmit : Nat → List TransportEvent → TxRequest → Draw Bool

/-- The free draw for `T.receive()`: bytes of any length (R263), an error, or no answer. -/
opaque Config.freeReceive : Nat → List TransportEvent → Draw (List Byte)

end Sys2Proof
end

