-- ==== Sys2Proof/Machine/Tables.lean ====
section
/-! DEFINITION. The tables' total lookups (spec/40_tables.md R102 to R104), the texts they show (R114, R115), the
constraints of a conforming configuration (R106 to R111), and the test configuration TC1 (R116 to
R118). -/

namespace Sys2Proof.Machine

/-- Look up an opcode in a table listed by opcode; the first row counts (log 2). -/
def lookup {α : Type} (op : Byte) : List (Byte × α) → Option α
  | [] => none
  | (k, a) :: rest => if k = op then some a else lookup op rest

/-- The properties of an opcode the table does not list: unsupported, class 0 (R104). -/
def unlistedProperties : OpcodeProperties :=
  { directedAllowed := false, broadcastAllowed := false, lengthClass := 0 }

/-- `classify`: a total function over the 256 opcodes (R102, R104). -/
def classify (cfg : Config) (op : Byte) : OpcodeProperties :=
  (lookup op cfg.opcodeTable).getD unlistedProperties

/-- `describe`: the description table alone decides (R103; spec/90_conflicts.md C6). -/
def describe (cfg : Config) (op : Byte) : Description :=
  match lookup op cfg.descriptionTable with
  | some t => .known t
  | none => .unsupported

/-- An opcode is recognized when some addressing flag is true (R100). -/
def recognized (p : OpcodeProperties) : Bool := p.directedAllowed || p.broadcastAllowed

/-- The length class with this index; every 4-bit index is valid (R101). -/
def lengthClassOf (cfg : Config) (c : Nibble) : LengthClass :=
  cfg.lengthClassTable[c.toNat]'c.isLt

/-- A payload length satisfies a class: both bounds are inclusive (R101, R137). -/
def lengthSatisfies (c : LengthClass) (len : Nat) : Bool := decide (c.min ≤ len ∧ len ≤ c.max)

/-- The display form of a description (R115). -/
def shownDescription (cfg : Config) : Description → DescText
  | .known t => t
  | .unsupported => cfg.sentinelText

/-- REASON_TEXT (R114). -/
def reasonText (cfg : Config) : Reason → DescText
  | .unrecognizedOpcode => cfg.reasonTexts.unrecognizedOpcode
  | .wrongMode => cfg.reasonTexts.wrongMode
  | .cannotProvideSource => cfg.reasonTexts.cannotProvideSource
  | .invalidOperand => cfg.reasonTexts.invalidOperand
  | .refused => cfg.reasonTexts.refused

/-! ## Constraints on a conforming configuration (R106 to R111, R114) -/

/-- R106: FEATURE_ABORT may be directed, and its class admits two operands. -/
def conformsFeatureAbort (cfg : Config) : Bool :=
  (classify cfg opFeatureAbort).directedAllowed &&
    lengthSatisfies (lengthClassOf cfg (classify cfg opFeatureAbort).lengthClass) 2

/-- R107: GIVE_DEVICE_VENDOR_ID is directed only. -/
def conformsGiveDeviceVendorId (cfg : Config) : Bool :=
  (classify cfg opGiveDeviceVendorId).directedAllowed &&
    !(classify cfg opGiveDeviceVendorId).broadcastAllowed

/-- R108: GET_MENU_LANGUAGE may be directed and has a single-value class other than 2. -/
def conformsGetMenuLanguage (cfg : Config) : Bool :=
  let c := lengthClassOf cfg (classify cfg opGetMenuLanguage).lengthClass
  decide (c.min = c.max) && (classify cfg opGetMenuLanguage).directedAllowed && decide (c.min ≠ 2)

/-- R109: ACTIVE_SOURCE may be broadcast, and its class admits two operands. -/
def conformsActiveSource (cfg : Config) : Bool :=
  (classify cfg cfg.opActiveSource).broadcastAllowed &&
    lengthSatisfies (lengthClassOf cfg (classify cfg cfg.opActiveSource).lengthClass) 2

/-- R110: exactly the recognized opcodes have a description. -/
def conformsDescriptions (cfg : Config) : Bool :=
  (List.range 256).all fun n =>
    decide (describe cfg (BitVec.ofNat 8 n) ≠ .unsupported) == recognized (classify cfg (BitVec.ofNat 8 n))

/-- R111: every class has its bounds in order. -/
def conformsClasses (cfg : Config) : Bool :=
  cfg.lengthClassTable.toList.all fun c => decide (c.min ≤ c.max)

/-- The constraints of R106 to R111, and R114's one fixed text. R112 (agreement with the CEC
specification) is no claim of the model. -/
def conforming (cfg : Config) : Bool :=
  conformsFeatureAbort cfg && conformsGiveDeviceVendorId cfg && conformsGetMenuLanguage cfg &&
    conformsActiveSource cfg && conformsDescriptions cfg && conformsClasses cfg &&
    decide (reasonText cfg .unrecognizedOpcode = "Unrecognized opcode")

/-! ## The test configuration TC1 -/

/-- TC1's OPCODE_TABLE (R116). -/
def tc1OpcodeTable : List (Byte × OpcodeProperties) :=
  [(0x00, { directedAllowed := true,  broadcastAllowed := false, lengthClass := 1 }),
   (0x36, { directedAllowed := true,  broadcastAllowed := true,  lengthClass := 0 }),
   (0x82, { directedAllowed := false, broadcastAllowed := true,  lengthClass := 1 }),
   (0x87, { directedAllowed := false, broadcastAllowed := true,  lengthClass := 2 }),
   (0x89, { directedAllowed := true,  broadcastAllowed := false, lengthClass := 3 }),
   (0x8C, { directedAllowed := true,  broadcastAllowed := false, lengthClass := 0 }),
   (0x8F, { directedAllowed := true,  broadcastAllowed := false, lengthClass := 0 }),
   (0x91, { directedAllowed := true,  broadcastAllowed := false, lengthClass := 0 })]

/-- TC1's LENGTH_CLASS_TABLE (R117). -/
def tc1LengthClassTable : Vector LengthClass 16 :=
  #v[⟨0, 0⟩, ⟨2, 2⟩, ⟨3, 3⟩, ⟨0, 14⟩, ⟨0, 14⟩, ⟨0, 14⟩, ⟨0, 14⟩, ⟨0, 14⟩,
     ⟨0, 14⟩, ⟨0, 14⟩, ⟨0, 14⟩, ⟨0, 14⟩, ⟨0, 14⟩, ⟨0, 14⟩, ⟨0, 14⟩, ⟨0, 14⟩]

/-- TC1's DESCRIPTION_TABLE (R118). -/
def tc1DescriptionTable : List (Byte × DescText) :=
  [(0x00, "Feature Abort"), (0x36, "Standby"), (0x82, "Active Source"), (0x87, "Device Vendor ID"),
   (0x89, "Vendor Command"), (0x8C, "Give Device Vendor ID"), (0x8F, "Give Device Power Status"),
   (0x91, "Get Menu Language")]

/-- TC1's REASON_TEXT (R118). -/
def tc1ReasonTexts : ReasonTexts :=
  { unrecognizedOpcode  := "Unrecognized opcode"
    wrongMode           := "Not in correct mode to respond"
    cannotProvideSource := "Cannot provide source"
    invalidOperand      := "Invalid operand"
    refused             := "Refused" }

/-- TC1 with the OP_* defaults of R8: the spec's own test configuration, not the source's table
(R116; log 1, log 14). -/
def tc1 : Config :=
  { opcodeTable             := tc1OpcodeTable
    lengthClassTable        := tc1LengthClassTable
    descriptionTable        := tc1DescriptionTable
    sentinelText            := "*Unsupported Opcode*"
    reasonTexts             := tc1ReasonTexts
    opActiveSource          := 0x82
    opDeviceVendorId        := 0x87
    opVendorCommand         := 0x89
    opGiveDevicePowerStatus := 0x8F }

end Sys2Proof.Machine
end

