-- ==== Sys2Proof/Syntax.lean ====
section
/-! DEFINITION. The instructions: one constructor per row of spec/opcode_table.json. Rows of format REQ are the
host's requests (spec/30_encoding.md R69); rows of formats POLL and MSG are the CEC frames the codec
receives (R60 to R66), "the codec's instruction set" in the words of spec/00_scope.md R1. -/

namespace Sys2Proof

/-- The instructions of the codec. -/
inductive Instr where
  /-- CLASSIFY: an opcode's properties (R102). -/
  | classify (op : Byte)
  /-- DESCRIBE: an opcode's display name (R103). -/
  | describe (op : Byte)
  /-- DECODE: validate a frame given as its length and sixteen bytes (R130, R68). -/
  | decode (flen : FrameLen) (fbytes : Vector Byte 16)
  /-- BUILD_PING (R161). -/
  | buildPing (init dest : Nibble)
  /-- BUILD_SIMPLE (R162). -/
  | buildSimple (init dest : Nibble) (op : Byte)
  /-- BUILD_FEATURE_ABORT (R163). -/
  | buildFeatureAbort (init dest : Nibble) (aop reason : Byte)
  /-- BUILD_ACTIVE_SOURCE (R164). -/
  | buildActiveSource (init : Nibble) (pa : PhysAddr)
  /-- TRANSMIT (R190). `none`: the txreq bundle is malformed (R70, R79). -/
  | transmit (req : Option TxRequest)
  /-- DISPATCH (R191). `none`: the dres bundle is malformed (R71, R79). -/
  | dispatch (dres : Option CarriedResult)
  /-- HANDLE_ONE (R200). -/
  | handleOne
  /-- REGISTER (R201). -/
  | register (la : Nibble)
  /-- GET_PHYS_ADDR (R202). -/
  | getPhysAddr
  /-- The reserved command code 0x0 (R79). -/
  | reservedCmd0
  /-- The reserved command code 0xD (R79). -/
  | reservedCmdD
  /-- The reserved command code 0xE (R79). -/
  | reservedCmdE
  /-- The reserved command code 0xF (R79). -/
  | reservedCmdF
  /-- A received polling message: one header byte (R65, R133). -/
  | framePoll (init dest : Nibble)
  /-- A received FEATURE_ABORT, opcode 0x00 (R194). -/
  | frameFeatureAbort (init dest : Nibble) (operands : List Byte)
  /-- A received GIVE_DEVICE_VENDOR_ID, opcode 0x8C (R196). -/
  | frameGiveDeviceVendorId (init dest : Nibble) (operands : List Byte)
  /-- A received GET_MENU_LANGUAGE, opcode 0x91 (R199). -/
  | frameGetMenuLanguage (init dest : Nibble) (operands : List Byte)
  /-- A received frame of opcode OP_ACTIVE_SOURCE (R164, R199). -/
  | frameActiveSource (init dest : Nibble) (operands : List Byte)
  /-- A received frame of opcode OP_DEVICE_VENDOR_ID (R197). -/
  | frameDeviceVendorId (init dest : Nibble) (operands : List Byte)
  /-- A received frame of opcode OP_VENDOR_COMMAND (R198). -/
  | frameVendorCommand (init dest : Nibble) (operands : List Byte)
  /-- A received frame of opcode OP_GIVE_DEVICE_POWER_STATUS (R162, R199). -/
  | frameGiveDevicePowerStatus (init dest : Nibble) (operands : List Byte)
  /-- A received frame of any other opcode (R130, R199). -/
  | frameMsgOther (init dest : Nibble) (opcode : Byte) (operands : List Byte)
deriving DecidableEq, Repr

end Sys2Proof
end

