-- ==== Sys2Proof/WellFormed.lean ====
section
/-! DEFINITION. Which arguments and instructions an encoding can carry: at most 14 operands (spec/30_encoding.md
R64, R70, R71), no operands without an opcode (R70), and a frame row that carries the opcode its row
names. -/

namespace Sys2Proof

/-- At most 14 operands (R64). -/
def operandsFit (operands : List Byte) : Bool := decide (operands.length ≤ maxPayload)

/-- A TxRequest is well formed: at most 14 operands, and none where there is no opcode (R70). -/
def TxRequest.wellFormed (req : TxRequest) : Bool :=
  operandsFit req.operands && (req.opcode.isSome || req.operands.isEmpty)

/-- A DecodeResult that the bundle of R71 can carry: at most 14 operands. -/
def CarriedResult.wellFormed : CarriedResult → Bool
  | .err _ => true
  | .polling _ _ => true
  | .message _ _ _ operands => operandsFit operands

/-- An instruction some request bundle or frame encodes under the configuration. A frame row named by an
opcode parameter is well formed only where no earlier row has that opcode (log 10). -/
def Instr.wellFormed (cfg : Config) : Instr → Bool
  | .classify _ => true
  | .describe _ => true
  | .decode _ _ => true
  | .buildPing _ _ => true
  | .buildSimple _ _ _ => true
  | .buildFeatureAbort _ _ _ _ => true
  | .buildActiveSource _ _ => true
  | .transmit none => true
  | .transmit (some req) => req.wellFormed
  | .dispatch none => true
  | .dispatch (some dres) => dres.wellFormed
  | .handleOne => true
  | .register _ => true
  | .getPhysAddr => true
  | .reservedCmd0 => true
  | .reservedCmdD => true
  | .reservedCmdE => true
  | .reservedCmdF => true
  | .framePoll _ _ => true
  | .frameFeatureAbort _ _ operands => operandsFit operands
  | .frameGiveDeviceVendorId _ _ operands => operandsFit operands
  | .frameDeviceVendorId _ _ operands =>
    operandsFit operands && !([opFeatureAbort, opGiveDeviceVendorId].contains cfg.opDeviceVendorId)
  | .frameVendorCommand _ _ operands =>
    operandsFit operands &&
      !([opFeatureAbort, opGiveDeviceVendorId, cfg.opDeviceVendorId].contains cfg.opVendorCommand)
  | .frameGetMenuLanguage _ _ operands =>
    operandsFit operands && !([cfg.opDeviceVendorId, cfg.opVendorCommand].contains opGetMenuLanguage)
  | .frameActiveSource _ _ operands =>
    operandsFit operands &&
      !([opFeatureAbort, opGiveDeviceVendorId, cfg.opDeviceVendorId, cfg.opVendorCommand,
          opGetMenuLanguage].contains cfg.opActiveSource)
  | .frameGiveDevicePowerStatus _ _ operands =>
    operandsFit operands &&
      !([opFeatureAbort, opGiveDeviceVendorId, cfg.opDeviceVendorId, cfg.opVendorCommand,
          opGetMenuLanguage, cfg.opActiveSource].contains cfg.opGiveDevicePowerStatus)
  | .frameMsgOther _ _ opcode operands =>
    operandsFit operands &&
      !([opFeatureAbort, opGiveDeviceVendorId, cfg.opDeviceVendorId, cfg.opVendorCommand,
          opGetMenuLanguage, cfg.opActiveSource, cfg.opGiveDevicePowerStatus].contains opcode)

end Sys2Proof
end

