-- ==== Sys2Proof/Decode.lean ====
section
/-! DEFINITION. From an encoded input to an instruction and back. A request is a bundle of named fields
(spec/30_encoding.md R68 to R71); a frame is a sequence of bytes (R60 to R65). Decoding is total: a
bundle always names an instruction (reserved command codes are instructions of their own), and bytes
that are no frame are rejected by name. -/

namespace Sys2Proof

/-! ## Bit fields -/

/-- `b[7:4]`: the initiator of a header byte (R61). -/
def hiNibble (b : Byte) : Nibble := b.extractLsb' 4 4

/-- `b[3:0]`: the destination of a header byte (R61). -/
def loNibble (b : Byte) : Nibble := b.extractLsb' 0 4

/-- `byte0 = (initiator << 4) | destination` (R61). -/
def header (initiator destination : Nibble) : Byte :=
  (initiator.zeroExtend 8 <<< 4) ||| destination.zeroExtend 8

/-- The bytes of a MSG frame (R60, R63, R64). -/
def frameBytes (initiator destination : Nibble) (opcode : Byte) (operands : List Byte) : List Byte :=
  header initiator destination :: opcode :: operands

/-! ## Bundles -/

/-- A list laid into a fixed number of byte lanes, the rest zero (log 16). -/
def padTo (n : Nat) (l : List Byte) : Vector Byte n :=
  ⟨((l ++ List.replicate n 0).take n).toArray, by simp⟩

/-- A TxRequest as a bundle field (R70). -/
structure TxBundle where
  initiator   : Nibble := 0
  destination : Nibble := 0
  hasOpcode   : BitVec 1 := 0
  opcode      : Byte := 0
  oplen       : Nibble := 0
  operands    : Vector Byte 14 := padTo 14 []
  retry       : Byte := 0
deriving DecidableEq, Repr

/-- A DecodeResult as a bundle field (R71). `kind`: 0 is Polling, 1 is Message. -/
structure DresBundle where
  status      : Nibble := 0
  kind        : BitVec 1 := 0
  initiator   : Nibble := 0
  destination : Nibble := 0
  opcode      : Byte := 0
  oplen       : Nibble := 0
  operands    : Vector Byte 14 := padTo 14 []
deriving DecidableEq, Repr

/-- The request bundle (R68). The spec gives its fields and their widths, and no bit positions but the
table's for `cmd` (log 11). -/
structure Bundle where
  cmd    : Nibble
  op     : Byte := 0
  init   : Nibble := 0
  dest   : Nibble := 0
  aop    : Byte := 0
  reason : Byte := 0
  pa     : PhysAddr := 0
  la     : Nibble := 0
  flen   : FrameLen := 0
  fbytes : Vector Byte 16 := padTo 16 []
  txreq  : TxBundle := {}
  dres   : DresBundle := {}
deriving DecidableEq, Repr

/-- An encoded instruction: a request bundle, or the bytes of a frame. -/
inductive Item where
  | request (b : Bundle)
  | frame   (bytes : List Byte)
deriving DecidableEq, Repr

/-- Why bytes are no frame (R60). -/
inductive FrameReject where
  /-- No byte at all: a frame has at least one. -/
  | empty
  /-- More than 16 bytes. -/
  | tooLong
deriving DecidableEq, Repr

/-- The status code of a decode error (R73). -/
def decodeErrorCode : DecodeError → Nibble
  | .unsupportedOpcode => 1
  | .broadcastMismatch => 2
  | .directedMismatch => 3
  | .invalidPayloadLength => 4

/-- The decode error with this status code, for 1 to 4 (R73). -/
def decodeErrorOfCode (status : Nibble) : Option DecodeError :=
  match status.toNat with
  | 1 => some .unsupportedOpcode
  | 2 => some .broadcastMismatch
  | 3 => some .directedMismatch
  | 4 => some .invalidPayloadLength
  | _ => none

/-- The txreq bundle's request, `none` where the bundle is malformed: oplen 15, or operands without an
opcode (R70). -/
def decodeTxBundle (b : TxBundle) : Option TxRequest :=
  if b.oplen = 15 then none
  else if b.hasOpcode = 0 then
    if b.oplen = 0 then
      some { initiator := b.initiator, destination := b.destination, opcode := none, operands := [],
             retry := b.retry }
    else none
  else
    some { initiator := b.initiator, destination := b.destination, opcode := some b.opcode,
           operands := b.operands.toList.take b.oplen.toNat, retry := b.retry }

/-- The dres bundle's result, `none` where the bundle is malformed: status above 4, or a message with
oplen 15 (R71). Where status is not 0 the other fields are ignored. -/
def decodeDresBundle (b : DresBundle) : Option CarriedResult :=
  if b.status = 0 then
    if b.kind = 0 then some (.polling b.initiator b.destination)
    else if b.oplen = 15 then none
    else some (.message b.initiator b.destination b.opcode (b.operands.toList.take b.oplen.toNat))
  else (decodeErrorOfCode b.status).map .err

/-! ## Decoding -/

/-- The instruction a request bundle names: `cmd` selects it, and only the fields it uses are read
(R68, R69). -/
def decodeRequest (b : Bundle) : Instr :=
  match b.cmd.toNat with
  | 0x0 => .reservedCmd0
  | 0x1 => .classify b.op
  | 0x2 => .describe b.op
  | 0x3 => .decode b.flen b.fbytes
  | 0x4 => .buildPing b.init b.dest
  | 0x5 => .buildSimple b.init b.dest b.op
  | 0x6 => .buildFeatureAbort b.init b.dest b.aop b.reason
  | 0x7 => .buildActiveSource b.init b.pa
  | 0x8 => .transmit (decodeTxBundle b.txreq)
  | 0x9 => .dispatch (decodeDresBundle b.dres)
  | 0xA => .handleOne
  | 0xB => .register b.la
  | 0xC => .getPhysAddr
  | 0xD => .reservedCmdD
  | 0xE => .reservedCmdE
  | _   => .reservedCmdF

/-- The row a MSG frame belongs to, by its opcode (R66). The opcodes DISPATCH tests come first, in the
order of R191; the order matters only where a configuration makes two opcodes equal (log 10). -/
def decodeMsg (cfg : Config) (i d : Nibble) (op : Byte) (operands : List Byte) : Instr :=
  if op = opFeatureAbort then .frameFeatureAbort i d operands
  else if op = opGiveDeviceVendorId then .frameGiveDeviceVendorId i d operands
  else if op = cfg.opDeviceVendorId then .frameDeviceVendorId i d operands
  else if op = cfg.opVendorCommand then .frameVendorCommand i d operands
  else if op = opGetMenuLanguage then .frameGetMenuLanguage i d operands
  else if op = cfg.opActiveSource then .frameActiveSource i d operands
  else if op = cfg.opGiveDevicePowerStatus then .frameGiveDevicePowerStatus i d operands
  else .frameMsgOther i d op operands

/-- The frame instruction of a byte sequence: one byte is a poll, 2 to 16 a message (R60). -/
def decodeFrame (cfg : Config) : List Byte → Except FrameReject Instr
  | [] => .error .empty
  | [b0] => .ok (.framePoll (hiNibble b0) (loNibble b0))
  | b0 :: op :: operands =>
    if operands.length ≤ maxPayload then .ok (decodeMsg cfg (hiNibble b0) (loNibble b0) op operands)
    else .error .tooLong

/-- The instruction an encoded input is. -/
def decodeItem (cfg : Config) : Item → Except FrameReject Instr
  | .request b => .ok (decodeRequest b)
  | .frame bytes => decodeFrame cfg bytes

/-! ## Encoding -/

/-- The txreq bundle of a request (R70). The opcode of a request that has none and the operand lanes at and above oplen
are ignored; here they are 0 (DESIGN CHOICE, safe, log 16). -/
def encodeTxRequest (req : TxRequest) : TxBundle :=
  { initiator := req.initiator, destination := req.destination,
    hasOpcode := if req.opcode.isSome then 1 else 0, opcode := req.opcode.getD 0,
    oplen := BitVec.ofNat 4 req.operands.length, operands := padTo 14 req.operands, retry := req.retry }

/-- The dres bundle of a decode result, as a DISPATCH request carries it (R71). The fields its form does not use and the
operand lanes at and above oplen are ignored; here they are 0 (DESIGN CHOICE, safe, log 16). -/
def encodeCarried : CarriedResult → DresBundle
  | .err k => { status := decodeErrorCode k }
  | .polling i d => { kind := 0, initiator := i, destination := d }
  | .message i d op operands =>
    { kind := 1, initiator := i, destination := d, opcode := op,
      oplen := BitVec.ofNat 4 operands.length, operands := padTo 14 operands }

/-- A malformed txreq bundle: oplen 15 (R70), one of several (log 16). -/
def malformedTxBundle : TxBundle := { oplen := 15 }

/-- A malformed dres bundle: status 5 (R71), one of several (log 16). -/
def malformedDresBundle : DresBundle := { status := 5 }

/-- The encoded input of an instruction: `cmd` from R69 and the fields the command uses, the rest, which R68 ignores, zero
(log 16); or the frame's bytes (R60, R61). -/
def encode (cfg : Config) : Instr → Item
  | .classify op => .request { cmd := 0x1, op := op }
  | .describe op => .request { cmd := 0x2, op := op }
  | .decode flen fbytes => .request { cmd := 0x3, flen := flen, fbytes := fbytes }
  | .buildPing i d => .request { cmd := 0x4, init := i, dest := d }
  | .buildSimple i d op => .request { cmd := 0x5, init := i, dest := d, op := op }
  | .buildFeatureAbort i d aop reason =>
    .request { cmd := 0x6, init := i, dest := d, aop := aop, reason := reason }
  | .buildActiveSource i pa => .request { cmd := 0x7, init := i, pa := pa }
  | .transmit none => .request { cmd := 0x8, txreq := malformedTxBundle }
  | .transmit (some req) => .request { cmd := 0x8, txreq := encodeTxRequest req }
  | .dispatch none => .request { cmd := 0x9, dres := malformedDresBundle }
  | .dispatch (some dres) => .request { cmd := 0x9, dres := encodeCarried dres }
  | .handleOne => .request { cmd := 0xA }
  | .register la => .request { cmd := 0xB, la := la }
  | .getPhysAddr => .request { cmd := 0xC }
  | .reservedCmd0 => .request { cmd := 0x0 }
  | .reservedCmdD => .request { cmd := 0xD }
  | .reservedCmdE => .request { cmd := 0xE }
  | .reservedCmdF => .request { cmd := 0xF }
  | .framePoll i d => .frame [header i d]
  | .frameFeatureAbort i d operands => .frame (frameBytes i d opFeatureAbort operands)
  | .frameGiveDeviceVendorId i d operands => .frame (frameBytes i d opGiveDeviceVendorId operands)
  | .frameGetMenuLanguage i d operands => .frame (frameBytes i d opGetMenuLanguage operands)
  | .frameActiveSource i d operands => .frame (frameBytes i d cfg.opActiveSource operands)
  | .frameDeviceVendorId i d operands => .frame (frameBytes i d cfg.opDeviceVendorId operands)
  | .frameVendorCommand i d operands => .frame (frameBytes i d cfg.opVendorCommand operands)
  | .frameGiveDevicePowerStatus i d operands =>
    .frame (frameBytes i d cfg.opGiveDevicePowerStatus operands)
  | .frameMsgOther i d op operands => .frame (frameBytes i d op operands)

/-! ## The opcode table's words -/

/-- The operand bytes of a table word longer than its first 16 bits. -/
def tableOperands (nbits w : Nat) : List Byte :=
  (List.range ((nbits - 16) / 8)).map fun k => BitVec.ofNat 8 (w >>> (16 + 8 * k))

/-- The encoded input a word of spec/opcode_table.json stands for (log 11). A row with no bits is the one-byte
POLL frame; a word of at most 8 bits with only `cmd` bits set is a request whose other fields are zero;
any other word is a MSG frame in the table's "16-bit match word = byte0:byte1" form, its operands
after it. -/
def tableItem (nbits w : Nat) : Item :=
  if nbits = 0 then .frame [0x00]
  else if nbits ≤ 8 ∧ w < 16 then .request { cmd := BitVec.ofNat 4 w }
  else .frame (BitVec.ofNat 8 (w >>> 8) :: BitVec.ofNat 8 w :: tableOperands nbits w)

/-- The instruction the decoder reads from a word of the opcode table, under the opcode defaults of
spec/00_scope.md R8 (`none` where it refuses). -/
def decodeTableWord (nbits w : Nat) : Option Instr :=
  match decodeItem Machine.tc1 (tableItem nbits w) with
  | .ok i => some i
  | .error _ => none

end Sys2Proof
end

