-- ==== Sys2Proof/Machine/State.lean ====
section
/-! DEFINITION. The state of the machine: the codec's own state (spec/10_state.md R22 to R24, R29), the
configuration it is given (R25), and, as the model's own fields, the output port, the host's inputs not yet
taken and the environment's draws. Also the reasons a step can stop, and the state after reset. -/

namespace Sys2Proof.Machine

/-- The codes of the sticky fault register (spec/30_encoding.md R76). -/
inductive FaultCode where
  /-- A frame of length 0 or more than 16 reached the decoder (R131). -/
  | lengthContract
  /-- The reply path read CTX_SELF_LA while it was unwritten (R196). -/
  | unregistered
  /-- `cmd` is 0x0 or 0xD to 0xF (R79). -/
  | illegalCommand
  /-- A malformed txreq or dres bundle (R79). -/
  | illegalArgument
deriving DecidableEq, Repr

/-- The value DECODE produces (R71). -/
inductive DecodeResult where
  | err     (k : DecodeError)
  | polling (initiator destination : Nibble)
  | message (initiator destination : Nibble) (opcode : Byte) (operands : List Byte)
            (description : Description)
deriving DecidableEq, Repr

/-- What DISPATCH and HANDLE_ONE report, with the fields each disposition makes meaningful (R74). -/
inductive Disposition where
  | default
  | dropped (k : DecodeError)
  | featureAbortInfo (aop rbyte : Byte) (reasonKnown : Bool)
  | featureAbortMalformed
  | ignored
  | replied (ack : Bool)
deriving DecidableEq, Repr

/-- A response: what its command returns with status OK, or an error status (R72, R73). -/
inductive Response where
  /-- CLASSIFY, status OK. -/
  | classified (p : OpcodeProperties)
  /-- DESCRIBE, status OK. -/
  | described (d : Description)
  /-- DECODE: status OK for Polling and Message, the error's code for Err. -/
  | decoded (r : DecodeResult)
  /-- BUILD_*, status OK. -/
  | built (req : TxRequest)
  /-- BUILD_FEATURE_ABORT, status INVALID_BUILD_INPUT. -/
  | invalidBuildInput
  /-- TRANSMIT, status OK. -/
  | transmitted (ack : Bool)
  /-- DISPATCH and HANDLE_ONE, status OK. -/
  | dispatched (d : Disposition)
  /-- REGISTER, status OK. -/
  | registered
  /-- GET_PHYS_ADDR, status OK. -/
  | physAddr (pa : PhysAddr)
  /-- Status TRANSPORT_ERROR, with the environment's error value unchanged. -/
  | transportError (e : TransportErr)
deriving DecidableEq, Repr

/-- The four calls of the transport boundary (spec/60_exceptions.md R262). -/
inductive Call where
  | registerDevice
  | getPhysicalAddress
  | transmit
  | receive
deriving DecidableEq, Repr

/-- The environment (R262): for each call the draws it will make, next first, and how many calls it has
answered. Where a list is empty the draw is free: any answer, or none ever (spec/60_exceptions.md R262, R264;
log 4). -/
structure Env where
  register : List (Draw Unit)
  physAddr : List (Draw PhysAddr)
  transmit : List (Draw Bool)
  receive  : List (Draw (List Byte))
  drawn    : Nat
deriving DecidableEq, Repr

/-- What the host gives the codec: an encoded instruction, or a reset (R260, spec/70_reset_and_hazards.md
R280). A frame given here is one the transport delivers to the host's poll (log 9). -/
inductive Input where
  | item (w : Item)
  | reset
deriving DecidableEq, Repr

/-- The state. `fault`, `ctxSelfLa` and `hist` are the codec's own (R29); `cfg` is the configuration, which
no step changes (R25; log 1); `response` is the output port (log 7); `inbox` holds the host's inputs, oldest
first (log 8); `env` is the environment (log 4). -/
structure State where
  cfg       : Config
  fault     : Option FaultCode
  ctxSelfLa : Option Nibble
  hist      : List TransportEvent
  response  : Option Response
  inbox     : List Input
  env       : Env
deriving DecidableEq, Repr

/-- Why a step stops the machine. -/
inductive Fault where
  /-- The environment's draw for a transport call is that it never answers: "While a call is unanswered, the
  codec has no step" (R264). Raised by the operations that make a call. Safe: the model has no next state
  where the hardware hangs (log 5). -/
  | hang (call : Call)
deriving DecidableEq, Repr

/-- Why a step has no meaning. -/
inductive Refusal where
  /-- The instruction has no meaning yet. Raised only by an arm of `exec`; no arm raises it now. Safe. -/
  | notModelled (mnemonic : String)
deriving DecidableEq, Repr

/-- An environment that scripts no draw: every draw is free (log 4). -/
def Env.unscripted : Env := { register := [], physAddr := [], transmit := [], receive := [], drawn := 0 }

/-- The state after reset of a codec with this configuration (R29, R280): FAULT none, CTX_SELF_LA
unwritten, HIST empty, no request in progress. -/
def State.resetWith (cfg : Config) : State :=
  { cfg := cfg, fault := none, ctxSelfLa := none, hist := [], response := none, inbox := [],
    env := Env.unscripted }

/-- The state after reset. R29 gives the configuration "their configured values"; TC1 is the one whole
configuration the spec gives (DESIGN CHOICE, unsafe, log 1). -/
def State.reset : State := State.resetWith tc1

end Sys2Proof.Machine
end

