-- ==== Sys2Proof/Machine/Operands.lean ====
section
/-! DEFINITION. The operand forms: the frame argument of DECODE (spec/41_decoder.md R131), the big-endian
physical address (spec/20_memory.md R43), the operand pair of a FEATURE_ABORT (spec/43_dispatch.md R194), the
wire image of a request (spec/30_encoding.md R70), and the requests of the four builders
(spec/42_builder.md R161 to R164). -/

namespace Sys2Proof.Machine

/-- The frame a DECODE request names: its first `flen` bytes, or `none` where `flen` breaks the length
contract (R131). -/
def frameArgument (flen : FrameLen) (fbytes : Vector Byte 16) : Option (List Byte) :=
  if flen.toNat = 0 ∨ maxFrame < flen.toNat then none else some (fbytes.toList.take flen.toNat)

/-- `L = |f| - 2` is the number of operands (R64, R137). -/
abbrev payloadLength (operands : List Byte) : Nat := operands.length

/-- The two operands of a FEATURE_ABORT, `none` for any other count (R194). -/
def abortOperands : List Byte → Option (Byte × Byte)
  | [aop, rbyte] => some (aop, rbyte)
  | _ => none

/-- `[pa[15:8], pa[7:0]]` (R43). -/
def bigEndian (pa : PhysAddr) : List Byte := [pa.extractLsb' 8 8, pa.extractLsb' 0 8]

/-- `bytes(req)`: the wire image of a request (R70). -/
def wireImage (req : TxRequest) : List Byte :=
  header req.initiator req.destination ::
    match req.opcode with
    | none => []
    | some op => op :: req.operands

/-- The request of BUILD_PING (R161). -/
def pingRequest (i d : Nibble) : TxRequest :=
  { initiator := i, destination := d, opcode := none, operands := [], retry := defaultRetry }

/-- The request of BUILD_SIMPLE (R162). -/
def simpleRequest (i d : Nibble) (op : Byte) : TxRequest :=
  { initiator := i, destination := d, opcode := some op, operands := [], retry := defaultRetry }

/-- The request of BUILD_FEATURE_ABORT (R163). -/
def featureAbortRequest (i d : Nibble) (aop reason : Byte) : TxRequest :=
  { initiator := i, destination := d, opcode := some opFeatureAbort, operands := [aop, reason],
    retry := defaultRetry }

/-- The request of BUILD_ACTIVE_SOURCE: always broadcast (R164). -/
def activeSourceRequest (cfg : Config) (i : Nibble) (pa : PhysAddr) : TxRequest :=
  { initiator := i, destination := broadcast, opcode := some cfg.opActiveSource,
    operands := bigEndian pa, retry := defaultRetry }

/-- A DecodeResult without its description, as DISPATCH reads it (R71). -/
def carried : DecodeResult → CarriedResult
  | .err k => .err k
  | .polling i d => .polling i d
  | .message i d op operands _ => .message i d op operands

end Sys2Proof.Machine
end

