-- ==== Sys2Proof/Machine/Flags.lean ====
section
/-! DEFINITION. The codec has no flags (spec/10_state.md R27). What stands in their place is the status and
disposition of a response: the numeric codes of spec/30_encoding.md R73 to R76, the reason codes of R75, and
the response bundle of R72 with the fields each response makes meaningful. -/

namespace Sys2Proof.Machine

/-- The byte of a reason (R75; 1 to 4 are general knowledge, log 14). -/
def reasonCode : Reason → Byte
  | .unrecognizedOpcode => 0
  | .wrongMode => 1
  | .cannotProvideSource => 2
  | .invalidOperand => 3
  | .refused => 4

/-- The reason of a byte: 0x00 to 0x04 name one, no other byte does (R75). -/
def reasonOfByte (rb : Byte) : Option Reason :=
  match rb.toNat with
  | 0 => some .unrecognizedOpcode
  | 1 => some .wrongMode
  | 2 => some .cannotProvideSource
  | 3 => some .invalidOperand
  | 4 => some .refused
  | _ => none

/-- `reason_known`: the byte is in the enumeration (R195). -/
def reasonKnown (rb : Byte) : Bool := (reasonOfByte rb).isSome

/-- The text surfaced for a received reason byte; none applies outside the enumeration (R195). -/
def surfacedReason (cfg : Config) (rb : Byte) : Option DescText := (reasonOfByte rb).map (reasonText cfg)

/-- The code of a fault (R76). -/
def faultCodeNumber : FaultCode → Nat
  | .lengthContract => 1
  | .unregistered => 2
  | .illegalCommand => 3
  | .illegalArgument => 4

/-- The status code of a DecodeResult: OK, or the error's code (R72). -/
def decodeStatus : DecodeResult → Nibble
  | .err k => decodeErrorCode k
  | .polling _ _ => 0
  | .message _ _ _ _ _ => 0

/-- The status code of a response (R73). -/
def statusCode : Response → Nibble
  | .decoded r => decodeStatus r
  | .transportError _ => 5
  | .invalidBuildInput => 6
  | .classified _ => 0
  | .described _ => 0
  | .built _ => 0
  | .transmitted _ => 0
  | .dispatched _ => 0
  | .registered => 0
  | .physAddr _ => 0

/-- The disposition code (R74). -/
def dispositionCode : Disposition → BitVec 3
  | .default => 0
  | .dropped _ => 1
  | .featureAbortInfo _ _ _ => 2
  | .featureAbortMalformed => 3
  | .ignored => 4
  | .replied _ => 5

/-- The DecodeResult of a DECODE response with status OK (R71, R72): each field where its form gives it a meaning. R71
gives no value to the opcode, oplen and operands of a Polling, nor to the lanes at and above oplen, so the model
gives them none (DESIGN CHOICE, safe, log 16). -/
structure DresFields where
  status      : Nibble
  kind        : BitVec 1
  initiator   : Nibble
  destination : Nibble
  opcode      : Option Byte := none
  oplen       : Option Nibble := none
  operands    : List Byte := []
deriving DecidableEq, Repr

/-- The response bundle (R72): the status code, and each other field where it is meaningful. -/
structure ResponseBundle where
  status           : Nibble
  directedAllowed  : Option Bool := none
  broadcastAllowed : Option Bool := none
  lengthClass      : Option Nibble := none
  description      : Option Description := none
  dres             : Option DresFields := none
  txreq            : Option TxRequest := none
  disp             : Option (BitVec 3) := none
  dstatus          : Option Nibble := none
  aop              : Option Byte := none
  rbyte            : Option Byte := none
  reasonKnown      : Option Bool := none
  ack              : Option Bool := none
  pa               : Option PhysAddr := none
  terr             : Option TransportErr := none
deriving DecidableEq, Repr

/-- The fields of a disposition (R74). -/
def dispositionBundle (d : Disposition) : ResponseBundle :=
  match d with
  | .default => { status := 0, disp := some (dispositionCode d) }
  | .dropped k => { status := 0, disp := some (dispositionCode d), dstatus := some (decodeErrorCode k) }
  | .featureAbortInfo aop rb known =>
    { status := 0, disp := some (dispositionCode d), aop := some aop, rbyte := some rb,
      reasonKnown := some known }
  | .featureAbortMalformed => { status := 0, disp := some (dispositionCode d) }
  | .ignored => { status := 0, disp := some (dispositionCode d) }
  | .replied ack => { status := 0, disp := some (dispositionCode d), ack := some ack }

/-- The fields of a decode result: with an error status no other field is meaningful (R72). -/
def decodedBundle (r : DecodeResult) : ResponseBundle :=
  match r with
  | .err k => { status := decodeErrorCode k }
  | .polling i d => { status := 0, dres := some { status := 0, kind := 0, initiator := i, destination := d } }
  | .message i d op operands desc =>
    { status := 0, description := some desc,
      dres := some { status := 0, kind := 1, initiator := i, destination := d, opcode := some op,
                     oplen := some (BitVec.ofNat 4 operands.length), operands := operands } }

/-- The response bundle of a response (R72). -/
def responseBundle (r : Response) : ResponseBundle :=
  match r with
  | .classified p =>
    { status := 0, directedAllowed := some p.directedAllowed, broadcastAllowed := some p.broadcastAllowed,
      lengthClass := some p.lengthClass }
  | .described d => { status := 0, description := some d }
  | .decoded res => decodedBundle res
  | .built req => { status := 0, txreq := some req }
  | .invalidBuildInput => { status := 6 }
  | .transmitted ack => { status := 0, ack := some ack }
  | .dispatched d => dispositionBundle d
  | .registered => { status := 0 }
  | .physAddr pa => { status := 0, pa := some pa }
  | .transportError e => { status := 5, terr := some e }

end Sys2Proof.Machine
end

