-- ==== Sys2Proof/Machine/Ops.lean ====
section
/-! DEFINITION. The named operations over the state: giving a response, raising a fault (the codec's only
exception, spec/60_exceptions.md R247), reset (the only way back, spec/70_reset_and_hazards.md R280), refusing
every request while FAULT is set (R248), and the four transport calls (R262). -/

namespace Sys2Proof.Machine

/-- The outcome of an instruction. -/
abbrev Result := Host.Outcome State Fault Refusal

/-! ## Responses and faults -/

/-- End the request with this response (R72). -/
def respond (r : Response) (s : State) : State := { s with response := some r }

/-- End the request with no response: it was refused, or it faulted (R247, R248). -/
def noResponse (s : State) : State := { s with response := none }

/-- `raise Fault(code)`: set the sticky register and give no response; the events already in HIST stay
(R22, R247). -/
def raiseFault (c : FaultCode) (s : State) : State := { s with fault := some c, response := none }

/-- Reset: FAULT, CTX_SELF_LA and HIST at their reset values, no request in progress. The configuration,
the transport and the host's later inputs are untouched (R280; log 15). -/
def resetCodec (s : State) : State :=
  { s with fault := none, ctxSelfLa := none, hist := [], response := none }

/-- Run a request, unless FAULT is set: then it is refused, with no response, no transport call and no
change of the codec's state (R248, R249 point 1; log 6). -/
def serve (body : State → Result) (s : State) : Result :=
  match s.fault with
  | some _ => .next (noResponse s)
  | none => body s

/-- Run an operation on an argument, or raise F_ILLEGAL_ARGUMENT where the bundle is malformed (R79). -/
def withArgument {α : Type} (arg : Option α) (body : α → State → Result) (s : State) : Result :=
  match arg with
  | none => .next (raiseFault .illegalArgument s)
  | some a => body a s

/-- The argument, where it is one a bundle can carry (R70, R71; log 12). -/
def argumentIf {α : Type} (ok : α → Bool) (arg : Option α) : Option α := arg.filter ok

/-- A call's answer as a response: `Ok(a)` as its command says, `Err(e)` as TRANSPORT_ERROR, unchanged
(R244). -/
def relay {α : Type} (k : α → Response) : Answer α → Response
  | .ok a => k a
  | .err e => .transportError e

/-! ## Transport calls

Each call takes the environment's next draw, appends its event to HIST (spec/10_state.md R24) and goes on with
the answer; on a draw that never answers the codec has no step (R264; log 5). -/

/-- The next draw: the script's first, or the free draw where the script is empty (log 4). -/
def nextDraw {α : Type} (script : List (Draw α)) (free : Draw α) : Draw α := script.headD free

/-- The environment's draw for `T.registerDevice(la)`. -/
def drawRegister (s : State) (la : Nibble) : Draw Unit :=
  nextDraw s.env.register (Config.freeRegister s.env.drawn s.hist la)

/-- The environment's draw for `T.getPhysicalAddress()`. -/
def drawPhysAddr (s : State) : Draw PhysAddr :=
  nextDraw s.env.physAddr (Config.freePhysAddr s.env.drawn s.hist)

/-- The environment's draw for `T.transmit(req)`. -/
def drawTransmit (s : State) (req : TxRequest) : Draw Bool :=
  nextDraw s.env.transmit (Config.freeTransmit s.env.drawn s.hist req)

/-- The environment's draw for `T.receive()`. -/
def drawReceive (s : State) : Draw (List Byte) :=
  nextDraw s.env.receive (Config.freeReceive s.env.drawn s.hist)

/-- After an answered `T.registerDevice(la)`. -/
def afterRegister (la : Nibble) (r : Answer Unit) (s : State) : State :=
  { s with hist := s.hist ++ [.register la r],
           env := { s.env with register := s.env.register.tail, drawn := s.env.drawn + 1 } }

/-- After an answered `T.getPhysicalAddress()`. -/
def afterPhysAddr (r : Answer PhysAddr) (s : State) : State :=
  { s with hist := s.hist ++ [.getPhysAddr r],
           env := { s.env with physAddr := s.env.physAddr.tail, drawn := s.env.drawn + 1 } }

/-- After an answered `T.transmit(req)`. -/
def afterTransmit (req : TxRequest) (r : Answer Bool) (s : State) : State :=
  { s with hist := s.hist ++ [.transmit req r],
           env := { s.env with transmit := s.env.transmit.tail, drawn := s.env.drawn + 1 } }

/-- After an answered `T.receive()`. -/
def afterReceive (r : Answer (List Byte)) (s : State) : State :=
  { s with hist := s.hist ++ [.receive r],
           env := { s.env with receive := s.env.receive.tail, drawn := s.env.drawn + 1 } }

/-- After the transport delivers a frame that the host's input holds: as `afterReceive`, but the answer is
the input's, so no scripted draw is taken (log 9). -/
def afterDelivery (bytes : List Byte) (s : State) : State :=
  { s with hist := s.hist ++ [.receive (.ok bytes)], env := { s.env with drawn := s.env.drawn + 1 } }

/-- Go on with a draw's answer, or hang (R264). -/
def onDraw {α : Type} (call : Call) (d : Draw α) (k : Answer α → Result) : Result :=
  match d with
  | .answered r => k r
  | .never => .fault (.hang call)

/-- `T.registerDevice(la) => r`. -/
def callRegister (la : Nibble) (k : Answer Unit → State → Result) (s : State) : Result :=
  onDraw .registerDevice (drawRegister s la) fun r => k r (afterRegister la r s)

/-- `T.getPhysicalAddress() => r`. -/
def callPhysAddr (k : Answer PhysAddr → State → Result) (s : State) : Result :=
  onDraw .getPhysicalAddress (drawPhysAddr s) fun r => k r (afterPhysAddr r s)

/-- `T.transmit(req) => r`. -/
def callTransmit (req : TxRequest) (k : Answer Bool → State → Result) (s : State) : Result :=
  onDraw .transmit (drawTransmit s req) fun r => k r (afterTransmit req r s)

/-- `T.receive() => r`. -/
def callReceive (k : Answer (List Byte) → State → Result) (s : State) : Result :=
  onDraw .receive (drawReceive s) fun r => k r (afterReceive r s)

/-- One transmission attempt, its answer relayed; the codec never re-issues it (R190, R205). -/
def transmitOnce (req : TxRequest) (k : Bool → Response) (s : State) : Result :=
  callTransmit req (fun r t => .next (respond (relay k r) t)) s

/-! ## Inputs -/

/-- The bytes of an encoded input; a request has none. -/
def itemBytes : Item → List Byte
  | .request _ => []
  | .frame bytes => bytes

/-- The environment with one draw scripted for every call that has none: each call accepted, with the zero
value of its answer, and a received frame of one zero byte (log 13). -/
def scriptNextDraws (e : Env) : Env :=
  { e with register := if e.register.isEmpty then [.answered (.ok ())] else e.register,
           physAddr := if e.physAddr.isEmpty then [.answered (.ok 0)] else e.physAddr,
           transmit := if e.transmit.isEmpty then [.answered (.ok false)] else e.transmit,
           receive := if e.receive.isEmpty then [.answered (.ok [0x00])] else e.receive }

end Sys2Proof.Machine
end

