-- ==== Sys2Proof/Machine/Builder.lean ====
section
/-! DEFINITION. The frame builders (spec/42_builder.md R160 to R165): no table is read, no state written, no
transport call made. -/

namespace Sys2Proof.Machine

/-- BUILD_PING (R161). -/
def execBuildPing (i d : Nibble) (s : State) : Result :=
  serve (fun s => .next (respond (.built (pingRequest i d)) s)) s

/-- BUILD_SIMPLE (R162). -/
def execBuildSimple (i d : Nibble) (op : Byte) (s : State) : Result :=
  serve (fun s => .next (respond (.built (simpleRequest i d op)) s)) s

/-- BUILD_FEATURE_ABORT (R163): a reason byte above 0x04 is refused with a status (R165). -/
def execBuildFeatureAbort (i d : Nibble) (aop reason : Byte) (s : State) : Result :=
  serve (fun s =>
    if reason > 0x04 then .next (respond .invalidBuildInput s)
    else .next (respond (.built (featureAbortRequest i d aop reason)) s)) s

/-- BUILD_ACTIVE_SOURCE (R164). -/
def execBuildActiveSource (i : Nibble) (pa : PhysAddr) (s : State) : Result :=
  serve (fun s => .next (respond (.built (activeSourceRequest s.cfg i pa)) s)) s

end Sys2Proof.Machine
end

