-- ==== Sys2Proof/Machine/Decoder.lean ====
section
/-! DEFINITION. The message decoder and DECODE (spec/41_decoder.md R130 to R142). -/

namespace Sys2Proof.Machine

/-- Steps 2 to 6 of DECODE, on a frame with an opcode: the first failing check wins (R130, R134 to R138). -/
def decodeMessage (cfg : Config) (i d : Nibble) (op : Byte) (operands : List Byte) : DecodeResult :=
  let p := classify cfg op
  if p.directedAllowed = false ∧ p.broadcastAllowed = false then .err .unsupportedOpcode
  else if d = broadcast ∧ p.broadcastAllowed = false then .err .broadcastMismatch
  else if d ≠ broadcast ∧ p.directedAllowed = false then .err .directedMismatch
  else if lengthSatisfies (lengthClassOf cfg p.lengthClass) (payloadLength operands) = false then
    .err .invalidPayloadLength
  else .message i d op operands (describe cfg op)

/-- DECODE on a byte sequence; `none` where it breaks the length contract (R130, R131). -/
def decodeBytes (cfg : Config) : List Byte → Option DecodeResult
  | [] => none
  | [b0] => some (.polling (hiNibble b0) (loNibble b0))
  | b0 :: op :: operands =>
    if operands.length ≤ maxPayload then
      some (decodeMessage cfg (hiNibble b0) (loNibble b0) op operands)
    else none

/-- DECODE (R130): the result as a response, or F_LENGTH_CONTRACT (R131). -/
def execDecode (flen : FrameLen) (fbytes : Vector Byte 16) (s : State) : Result :=
  serve (fun s =>
    match (frameArgument flen fbytes).bind (decodeBytes s.cfg) with
    | none => .next (raiseFault .lengthContract s)
    | some r => .next (respond (.decoded r) s)) s

end Sys2Proof.Machine
end

