-- ==== Sys2Proof/Machine/Reply.lean ====
section
/-! DEFINITION. The reply policy, DISPATCH and HANDLE_ONE (spec/43_dispatch.md R191 to R200, R203 to R205). -/

namespace Sys2Proof.Machine

/-- A received FEATURE_ABORT: exactly two operands, reported with whether the reason is known (R194, R195). -/
def featureAbortReceived (operands : List Byte) : Disposition :=
  match abortOperands operands with
  | none => .featureAbortMalformed
  | some (aop, rbyte) => .featureAbortInfo aop rbyte (reasonKnown rbyte)

/-- A received GIVE_DEVICE_VENDOR_ID: answered with a feature abort to its sender, in one attempt; with
CTX_SELF_LA unwritten the codec faults before the call (R196, R249 point 5). -/
def vendorIdRequested (sender : Nibble) (s : State) : Result :=
  match s.ctxSelfLa with
  | none => .next (raiseFault .unregistered s)
  | some self =>
    transmitOnce (featureAbortRequest self sender opGiveDeviceVendorId (reasonCode .unrecognizedOpcode))
      (fun ack => .dispatched (.replied ack)) s

/-- Route a decoded message by its opcode; the destination is not looked at (R191, R203). -/
def dispatchMessage (i : Nibble) (op : Byte) (operands : List Byte) (s : State) : Result :=
  if op = opFeatureAbort then .next (respond (.dispatched (featureAbortReceived operands)) s)
  else if op = opGiveDeviceVendorId then vendorIdRequested i s
  else if op = s.cfg.opDeviceVendorId then .next (respond (.dispatched .ignored) s)
  else if op = s.cfg.opVendorCommand then .next (respond (.dispatched .ignored) s)
  else .next (respond (.dispatched .default) s)

/-- Route one decode result (R191): an error is dropped (R192), a poll takes the default path (R193). -/
def dispatchResult (dr : CarriedResult) (s : State) : Result :=
  match dr with
  | .err k => .next (respond (.dispatched (.dropped k)) s)
  | .polling _ _ => .next (respond (.dispatched .default) s)
  | .message i _ op operands => dispatchMessage i op operands s

/-- Decode received bytes and dispatch the result, or raise F_LENGTH_CONTRACT (R200, R249 point 3). -/
def handleReceived (bytes : List Byte) (s : State) : Result :=
  match decodeBytes s.cfg bytes with
  | none => .next (raiseFault .lengthContract s)
  | some r => dispatchResult (carried r) s

/-- DISPATCH (R191). -/
def execDispatch (dres : Option CarriedResult) (s : State) : Result :=
  serve (withArgument (argumentIf CarriedResult.wellFormed dres) dispatchResult) s

/-- HANDLE_ONE (R200): receive one frame, decode it, dispatch it. -/
def execHandleOne (s : State) : Result :=
  serve (callReceive fun r t =>
    match r with
    | .ok bytes => handleReceived bytes t
    | .err e => .next (respond (.transportError e) t)) s

end Sys2Proof.Machine
end

