-- ==== Sys2Proof/Machine/Frames.lean ====
section
/-! DEFINITION. The frame rows of the opcode table: what the codec does when the transport delivers the frame to a
HANDLE_ONE (spec/43_dispatch.md R200; log 9). -/

namespace Sys2Proof.Machine

/-- The transport delivers these bytes to the host's poll: the Receive event, then decode and dispatch. -/
def receiveFrame (bytes : List Byte) (s : State) : Result :=
  serve (fun s => handleReceived bytes (afterDelivery bytes s)) s

/-- A polling message (R65, R133, R193). -/
def execFramePoll (i d : Nibble) (s : State) : Result := receiveFrame [header i d] s

/-- FEATURE_ABORT, opcode 0x00 (R194). -/
def execFrameFeatureAbort (i d : Nibble) (operands : List Byte) (s : State) : Result :=
  receiveFrame (frameBytes i d opFeatureAbort operands) s

/-- GIVE_DEVICE_VENDOR_ID, opcode 0x8C (R196). -/
def execFrameGiveDeviceVendorId (i d : Nibble) (operands : List Byte) (s : State) : Result :=
  receiveFrame (frameBytes i d opGiveDeviceVendorId operands) s

/-- GET_MENU_LANGUAGE, opcode 0x91 (R199). -/
def execFrameGetMenuLanguage (i d : Nibble) (operands : List Byte) (s : State) : Result :=
  receiveFrame (frameBytes i d opGetMenuLanguage operands) s

/-- ACTIVE_SOURCE, opcode OP_ACTIVE_SOURCE (R199). -/
def execFrameActiveSource (i d : Nibble) (operands : List Byte) (s : State) : Result :=
  receiveFrame (frameBytes i d s.cfg.opActiveSource operands) s

/-- DEVICE_VENDOR_ID, opcode OP_DEVICE_VENDOR_ID (R197). -/
def execFrameDeviceVendorId (i d : Nibble) (operands : List Byte) (s : State) : Result :=
  receiveFrame (frameBytes i d s.cfg.opDeviceVendorId operands) s

/-- VENDOR_COMMAND, opcode OP_VENDOR_COMMAND (R198). -/
def execFrameVendorCommand (i d : Nibble) (operands : List Byte) (s : State) : Result :=
  receiveFrame (frameBytes i d s.cfg.opVendorCommand operands) s

/-- GIVE_DEVICE_POWER_STATUS, opcode OP_GIVE_DEVICE_POWER_STATUS (R199). -/
def execFrameGiveDevicePowerStatus (i d : Nibble) (operands : List Byte) (s : State) : Result :=
  receiveFrame (frameBytes i d s.cfg.opGiveDevicePowerStatus operands) s

/-- Any other opcode (R130, R199). -/
def execFrameMsgOther (i d : Nibble) (op : Byte) (operands : List Byte) (s : State) : Result :=
  receiveFrame (frameBytes i d op operands) s

end Sys2Proof.Machine
end

