-- ==== Sys2Proof/Machine/Lookup.lean ====
section
/-! DEFINITION. CLASSIFY and DESCRIBE (spec/40_tables.md R102, R103). -/

namespace Sys2Proof.Machine

/-- CLASSIFY (R102): no state is written and no error path exists. -/
def execClassify (op : Byte) (s : State) : Result :=
  serve (fun s => .next (respond (.classified (classify s.cfg op)) s)) s

/-- DESCRIBE (R103). -/
def execDescribe (op : Byte) (s : State) : Result :=
  serve (fun s => .next (respond (.described (describe s.cfg op)) s)) s

end Sys2Proof.Machine
end

