-- ==== Sys2Proof/Machine/Reserved.lean ====
section
/-! DEFINITION. The reserved command codes: each raises F_ILLEGAL_COMMAND, and nothing else happens
(spec/30_encoding.md R79). -/

namespace Sys2Proof.Machine

/-- A request whose `cmd` names no operation (R79). -/
def illegalCommand (s : State) : Result := serve (fun s => .next (raiseFault .illegalCommand s)) s

/-- `cmd` 0x0 (R79). -/
def execReservedCmd0 (s : State) : Result := illegalCommand s

/-- `cmd` 0xD (R79). -/
def execReservedCmdD (s : State) : Result := illegalCommand s

/-- `cmd` 0xE (R79). -/
def execReservedCmdE (s : State) : Result := illegalCommand s

/-- `cmd` 0xF (R79). -/
def execReservedCmdF (s : State) : Result := illegalCommand s

end Sys2Proof.Machine
end

