-- ==== Sys2Proof/Machine/Transport.lean ====
section
/-! DEFINITION. TRANSMIT, REGISTER and GET_PHYS_ADDR (spec/43_dispatch.md R190, R201, R202). -/

namespace Sys2Proof.Machine

/-- TRANSMIT (R190): exactly one call, the retry value passed unchanged. -/
def execTransmit (req : Option TxRequest) (s : State) : Result :=
  serve (withArgument (argumentIf TxRequest.wellFormed req) fun r => transmitOnce r .transmitted) s

/-- REGISTER (R201): CTX_SELF_LA is written only where the transport accepts. -/
def execRegister (la : Nibble) (s : State) : Result :=
  serve (callRegister la fun r t =>
    match r with
    | .ok () => .next (respond .registered { t with ctxSelfLa := some la })
    | .err e => .next (respond (.transportError e) t)) s

/-- GET_PHYS_ADDR (R202): the value is not cached. -/
def execGetPhysAddr (s : State) : Result :=
  serve (callPhysAddr fun r t => .next (respond (relay .physAddr r) t)) s

end Sys2Proof.Machine
end

