-- ==== Sys2Proof/Machine/Dispatch.lean ====
section
/-! DEFINITION. The meaning of every instruction: one arm per constructor of Instr, each one call of the
meaning. -/

namespace Sys2Proof.Machine

def exec (i : Instr) (s : State) : Host.Outcome State Fault Refusal :=
  match i with
  | .classify op => Sys2Proof.Machine.execClassify op s
  | .describe op => Sys2Proof.Machine.execDescribe op s
  | .decode flen fbytes => Sys2Proof.Machine.execDecode flen fbytes s
  | .buildPing init dest => Sys2Proof.Machine.execBuildPing init dest s
  | .buildSimple init dest op => Sys2Proof.Machine.execBuildSimple init dest op s
  | .buildFeatureAbort init dest aop reason => Sys2Proof.Machine.execBuildFeatureAbort init dest aop reason s
  | .buildActiveSource init pa => Sys2Proof.Machine.execBuildActiveSource init pa s
  | .transmit req => Sys2Proof.Machine.execTransmit req s
  | .dispatch dres => Sys2Proof.Machine.execDispatch dres s
  | .handleOne => Sys2Proof.Machine.execHandleOne s
  | .register la => Sys2Proof.Machine.execRegister la s
  | .getPhysAddr => Sys2Proof.Machine.execGetPhysAddr s
  | .reservedCmd0 => Sys2Proof.Machine.execReservedCmd0 s
  | .reservedCmdD => Sys2Proof.Machine.execReservedCmdD s
  | .reservedCmdE => Sys2Proof.Machine.execReservedCmdE s
  | .reservedCmdF => Sys2Proof.Machine.execReservedCmdF s
  | .framePoll init dest => Sys2Proof.Machine.execFramePoll init dest s
  | .frameFeatureAbort init dest operands => Sys2Proof.Machine.execFrameFeatureAbort init dest operands s
  | .frameGiveDeviceVendorId init dest operands => Sys2Proof.Machine.execFrameGiveDeviceVendorId init dest operands s
  | .frameGetMenuLanguage init dest operands => Sys2Proof.Machine.execFrameGetMenuLanguage init dest operands s
  | .frameActiveSource init dest operands => Sys2Proof.Machine.execFrameActiveSource init dest operands s
  | .frameDeviceVendorId init dest operands => Sys2Proof.Machine.execFrameDeviceVendorId init dest operands s
  | .frameVendorCommand init dest operands => Sys2Proof.Machine.execFrameVendorCommand init dest operands s
  | .frameGiveDevicePowerStatus init dest operands => Sys2Proof.Machine.execFrameGiveDevicePowerStatus init dest operands s
  | .frameMsgOther init dest opcode operands => Sys2Proof.Machine.execFrameMsgOther init dest opcode operands s

end Sys2Proof.Machine
end

