-- ==== Sys2Proof/Machine/Step.lean ====
section
/-! DEFINITION. One step: take the host's next input and do what it asks (spec/00_scope.md R11, spec/10_state.md
R21, spec/70_reset_and_hazards.md R284). -/

namespace Sys2Proof.Machine

/-- An encoded input: the decoded instruction runs; bytes that are no frame go to HANDLE_ONE's length
check as they are (R200). -/
def stepItem (w : Item) (s : State) : Host.Outcome State Fault Refusal :=
  match decodeItem s.cfg w with
  | .ok i => exec i s
  | .error _ => receiveFrame (itemBytes w) s

/-- One step. With no input the codec has nothing to do and the state stays (log 8); a reset is taken as
R280 says; any other input is a request. -/
def step (s : State) : Host.Outcome State Fault Refusal :=
  match s.inbox with
  | [] => .next s
  | .reset :: rest => .next (resetCodec { s with inbox := rest })
  | .item w :: rest => stepItem w { s with inbox := rest }

/-- `s` with the instruction of an opcode-table word as the host's next input, and the next draw of every
transport call scripted where none is, so that a call it makes is answered (log 8, log 13). -/
def State.withFetchWord (s : State) (nbits w : Nat) : State :=
  { s with inbox := .item (tableItem nbits w) :: s.inbox, env := scriptNextDraws s.env }

end Sys2Proof.Machine
end

