-- ==== Sys2Proof/Safety.lean ====
section
/-! DEFINITION. The terms claims are stated in: what an observation of the history says, when a frame is accepted,
which parts of two inputs agree, and the invariants. -/

namespace Sys2Proof

open Sys2Proof.Machine

/-! ## The transport history -/

/-- The codec's address after one more event: an accepted registration sets it (spec/43_dispatch.md R201). -/
def selfAfter (self : Option Nibble) : TransportEvent → Option Nibble
  | .register la (.ok ()) => some la
  | .register _ (.err _) => self
  | .getPhysAddr _ => self
  | .transmit _ _ => self
  | .receive _ => self

/-- The address of the last registration the transport accepted, if any (R201). -/
def lastRegistered (hist : List TransportEvent) : Option Nibble := hist.foldl selfAfter none

/-- An event that sends a frame. -/
def isTransmit : TransportEvent → Bool
  | .transmit _ _ => true
  | _ => false

/-- Every frame handed to the transport is the image of a well-formed request (spec/30_encoding.md R70). -/
def transmitsWellFormed (hist : List TransportEvent) : Prop :=
  ∀ req r, .transmit req r ∈ hist → req.wellFormed = true

/-! ## Invariants -/

/-- CTX_SELF_LA is what the last accepted registration made it (spec/10_state.md R23). -/
def selfIsLastRegistration (s : State) : Prop := s.ctxSelfLa = lastRegistered s.hist

/-- Only well-formed requests have been sent. -/
def sentWellFormed (s : State) : Prop := transmitsWellFormed s.hist

/-! ## Acceptance of a frame -/

/-- The decoder accepts a message frame: its destination's addressing flag is set and its operand count is in
its class, and within the 14 a frame carries (spec/41_decoder.md R134 to R138, spec/30_encoding.md R64). -/
abbrev accepted (cfg : Config) (dest : Nibble) (op : Byte) (count : Nat) : Prop :=
  (if dest = 0xF then (classify cfg op).broadcastAllowed else (classify cfg op).directedAllowed) = true ∧
    (lengthClassOf cfg (classify cfg op).lengthClass).min ≤ count ∧
    count ≤ (lengthClassOf cfg (classify cfg op).lengthClass).max ∧ count ≤ 14

/-- The initiator, destination, opcode and operands of a MSG frame instruction. -/
def messageFields (cfg : Config) : Instr → Option (Nibble × Nibble × Byte × List Byte)
  | .frameFeatureAbort i d ops => some (i, d, opFeatureAbort, ops)
  | .frameGiveDeviceVendorId i d ops => some (i, d, opGiveDeviceVendorId, ops)
  | .frameGetMenuLanguage i d ops => some (i, d, opGetMenuLanguage, ops)
  | .frameActiveSource i d ops => some (i, d, cfg.opActiveSource, ops)
  | .frameDeviceVendorId i d ops => some (i, d, cfg.opDeviceVendorId, ops)
  | .frameVendorCommand i d ops => some (i, d, cfg.opVendorCommand, ops)
  | .frameGiveDevicePowerStatus i d ops => some (i, d, cfg.opGiveDevicePowerStatus, ops)
  | .frameMsgOther i d op ops => some (i, d, op, ops)
  | _ => none

/-! ## Kinds of instruction -/

/-- CLASSIFY, DESCRIBE, DECODE and BUILD_*: the requests that make no transport call (spec/10_state.md R26). -/
def isPure : Instr → Bool
  | .classify _ | .describe _ | .decode _ _ => true
  | .buildPing _ _ | .buildSimple _ _ _ | .buildFeatureAbort _ _ _ _ | .buildActiveSource _ _ => true
  | _ => false

/-- The instructions that route a decode result: DISPATCH, HANDLE_ONE and the received frames. -/
def routes (cfg : Config) : Instr → Bool
  | .dispatch _ | .handleOne | .framePoll _ _ => true
  | i => (messageFields cfg i).isSome

/-- The instructions whose response carries a description (spec/40_tables.md R103, spec/41_decoder.md R138). -/
def describes : Instr → Bool
  | .describe _ | .decode _ _ => true
  | _ => false

/-! ## Relations between inputs and states -/

/-- Two txreq bundles say the same request: they agree on every field that is not ignored (R68, R70). -/
def sameTxFields (a b : TxBundle) : Prop :=
  a.initiator = b.initiator ∧ a.destination = b.destination ∧ a.hasOpcode = b.hasOpcode ∧
    a.oplen = b.oplen ∧ a.retry = b.retry ∧ (a.hasOpcode = 1 → a.opcode = b.opcode) ∧
    a.operands.toList.take a.oplen.toNat = b.operands.toList.take b.oplen.toNat

/-- Two dres bundles say the same result: with a status other than 0 only the status counts (R71). -/
def sameDresFields (a b : DresBundle) : Prop :=
  a.status = b.status ∧
    (a.status = 0 → a.kind = b.kind ∧ a.initiator = b.initiator ∧ a.destination = b.destination ∧
      (a.kind = 1 → a.opcode = b.opcode ∧ a.oplen = b.oplen ∧
        a.operands.toList.take a.oplen.toNat = b.operands.toList.take b.oplen.toNat))

/-- Two request bundles agree on `cmd` and on every field their command uses, by the table of R68. Of the
frame bytes of DECODE the first min(flen, 16) count. -/
def sameUsedFields (a b : Bundle) : Prop :=
  a.cmd = b.cmd ∧
    (a.cmd = 0x1 ∨ a.cmd = 0x2 ∨ a.cmd = 0x5 → a.op = b.op) ∧
    (a.cmd = 0x4 ∨ a.cmd = 0x5 ∨ a.cmd = 0x6 ∨ a.cmd = 0x7 → a.init = b.init) ∧
    (a.cmd = 0x4 ∨ a.cmd = 0x5 ∨ a.cmd = 0x6 → a.dest = b.dest) ∧
    (a.cmd = 0x6 → a.aop = b.aop ∧ a.reason = b.reason) ∧
    (a.cmd = 0x7 → a.pa = b.pa) ∧
    (a.cmd = 0xB → a.la = b.la) ∧
    (a.cmd = 0x3 → a.flen = b.flen ∧
      a.fbytes.toList.take a.flen.toNat = b.fbytes.toList.take b.flen.toNat) ∧
    (a.cmd = 0x8 → sameTxFields a.txreq b.txreq) ∧
    (a.cmd = 0x9 → sameDresFields a.dres b.dres)

/-- The state with other display texts: the description table, the sentinel and the reason texts. -/
def withTexts (table : List (Byte × DescText)) (sentinel : DescText) (reasons : ReasonTexts)
    (s : State) : State :=
  { s with cfg := { s.cfg with descriptionTable := table, sentinelText := sentinel,
                               reasonTexts := reasons } }

/-- A result with its next state, if any, changed by a function. -/
def onNext (f : State → State) : Result → Result
  | .next t => .next (f t)
  | .fault r => .fault r
  | .refused r => .refused r

/-- Every transport call's next draw is scripted. -/
def scripted (e : Env) : Prop :=
  e.register ≠ [] ∧ e.physAddr ≠ [] ∧ e.transmit ≠ [] ∧ e.receive ≠ []

/-- A reply to this sender, if the codec is registered, is answered (R196, R264). -/
def replyAnswered (sender : Nibble) (s : State) : Prop :=
  ∀ self, s.ctxSelfLa = some self →
    drawTransmit s { initiator := self, destination := sender, opcode := some 0x00, operands := [0x8C, 0x00],
                     retry := 5 } ≠ .never

/-- The reply to these received bytes, if they are a GIVE_DEVICE_VENDOR_ID the decoder accepts, is answered. -/
def bytesAnswered (bytes : List Byte) (s : State) : Prop :=
  ∀ i d ops desc, decodeBytes s.cfg bytes = some (.message i d 0x8C ops desc) → replyAnswered i s

/-- Every call this instruction makes in this state, with FAULT clear, is answered (R264). -/
def callsAnswered (ins : Instr) (s : State) : Prop :=
  match ins with
  | .register la => drawRegister s la ≠ .never
  | .getPhysAddr => drawPhysAddr s ≠ .never
  | .transmit req => ∀ r, req = some r → r.wellFormed = true → drawTransmit s r ≠ .never
  | .dispatch dres => ∀ i d ops, dres = some (.message i d 0x8C ops) → ops.length ≤ 14 → replyAnswered i s
  | .handleOne => drawReceive s ≠ .never ∧
      ∀ bytes, drawReceive s = .answered (.ok bytes) → bytesAnswered bytes (afterReceive (.ok bytes) s)
  | other => ∀ i d op ops, messageFields s.cfg other = some (i, d, op, ops) →
      bytesAnswered (header i d :: op :: ops) (afterDelivery (header i d :: op :: ops) s)

/-- Two results say the same to the host and send the same frames: the same stop, or next states with the same
response, FAULT, CTX_SELF_LA and Transmit events. -/
def sameReaction : Result → Result → Prop
  | .next t, .next t' =>
    t.response = t'.response ∧ t.fault = t'.fault ∧ t.ctxSelfLa = t'.ctxSelfLa ∧
      t.hist.filter isTransmit = t'.hist.filter isTransmit
  | .fault r, .fault r' => r = r'
  | .refused r, .refused r' => r = r'
  | _, _ => False

/-- The transport's promise about receive (spec/60_exceptions.md R263): a received frame has 1 to 16 bytes. No
statement needs it; a claim about a run may take it as a premise. -/
def receivePromise (s : State) : Prop :=
  ∀ bytes, drawReceive s = .answered (.ok bytes) → 1 ≤ bytes.length ∧ bytes.length ≤ 16

end Sys2Proof
end

