-- ==== Sys2Proof/Laws/State.lean ====
section
/-! SUPPORT. What each state update leaves of each field: one lemma per field per update, so that no proof
unfolds a record update. -/

namespace Sys2Proof.Machine

variable (s : State) (r : Response) (c : FaultCode) (la : Nibble) (req : TxRequest) (bytes : List Byte)

@[simp] theorem respond_cfg : (respond r s).cfg = s.cfg := rfl
@[simp] theorem respond_fault : (respond r s).fault = s.fault := rfl
@[simp] theorem respond_ctxSelfLa : (respond r s).ctxSelfLa = s.ctxSelfLa := rfl
@[simp] theorem respond_hist : (respond r s).hist = s.hist := rfl
@[simp] theorem respond_response : (respond r s).response = some r := rfl
@[simp] theorem respond_inbox : (respond r s).inbox = s.inbox := rfl
@[simp] theorem respond_env : (respond r s).env = s.env := rfl

@[simp] theorem noResponse_cfg : (noResponse s).cfg = s.cfg := rfl
@[simp] theorem noResponse_fault : (noResponse s).fault = s.fault := rfl
@[simp] theorem noResponse_ctxSelfLa : (noResponse s).ctxSelfLa = s.ctxSelfLa := rfl
@[simp] theorem noResponse_hist : (noResponse s).hist = s.hist := rfl
@[simp] theorem noResponse_response : (noResponse s).response = none := rfl
@[simp] theorem noResponse_inbox : (noResponse s).inbox = s.inbox := rfl
@[simp] theorem noResponse_env : (noResponse s).env = s.env := rfl

@[simp] theorem raiseFault_cfg : (raiseFault c s).cfg = s.cfg := rfl
@[simp] theorem raiseFault_fault : (raiseFault c s).fault = some c := rfl
@[simp] theorem raiseFault_ctxSelfLa : (raiseFault c s).ctxSelfLa = s.ctxSelfLa := rfl
@[simp] theorem raiseFault_hist : (raiseFault c s).hist = s.hist := rfl
@[simp] theorem raiseFault_response : (raiseFault c s).response = none := rfl
@[simp] theorem raiseFault_inbox : (raiseFault c s).inbox = s.inbox := rfl
@[simp] theorem raiseFault_env : (raiseFault c s).env = s.env := rfl

@[simp] theorem resetCodec_cfg : (resetCodec s).cfg = s.cfg := rfl
@[simp] theorem resetCodec_fault : (resetCodec s).fault = none := rfl
@[simp] theorem resetCodec_ctxSelfLa : (resetCodec s).ctxSelfLa = none := rfl
@[simp] theorem resetCodec_hist : (resetCodec s).hist = [] := rfl
@[simp] theorem resetCodec_response : (resetCodec s).response = none := rfl
@[simp] theorem resetCodec_inbox : (resetCodec s).inbox = s.inbox := rfl
@[simp] theorem resetCodec_env : (resetCodec s).env = s.env := rfl

@[simp] theorem afterRegister_cfg (x : Answer Unit) : (afterRegister la x s).cfg = s.cfg := rfl
@[simp] theorem afterRegister_fault (x : Answer Unit) : (afterRegister la x s).fault = s.fault := rfl
@[simp] theorem afterRegister_ctxSelfLa (x : Answer Unit) :
    (afterRegister la x s).ctxSelfLa = s.ctxSelfLa := rfl
@[simp] theorem afterRegister_hist (x : Answer Unit) :
    (afterRegister la x s).hist = s.hist ++ [.register la x] := rfl
@[simp] theorem afterRegister_response (x : Answer Unit) : (afterRegister la x s).response = s.response := rfl
@[simp] theorem afterRegister_inbox (x : Answer Unit) : (afterRegister la x s).inbox = s.inbox := rfl
@[simp] theorem afterRegister_env (x : Answer Unit) :
    (afterRegister la x s).env = { s.env with register := s.env.register.tail, drawn := s.env.drawn + 1 } := rfl

@[simp] theorem afterPhysAddr_cfg (x : Answer PhysAddr) : (afterPhysAddr x s).cfg = s.cfg := rfl
@[simp] theorem afterPhysAddr_fault (x : Answer PhysAddr) : (afterPhysAddr x s).fault = s.fault := rfl
@[simp] theorem afterPhysAddr_ctxSelfLa (x : Answer PhysAddr) :
    (afterPhysAddr x s).ctxSelfLa = s.ctxSelfLa := rfl
@[simp] theorem afterPhysAddr_hist (x : Answer PhysAddr) :
    (afterPhysAddr x s).hist = s.hist ++ [.getPhysAddr x] := rfl
@[simp] theorem afterPhysAddr_response (x : Answer PhysAddr) :
    (afterPhysAddr x s).response = s.response := rfl
@[simp] theorem afterPhysAddr_inbox (x : Answer PhysAddr) : (afterPhysAddr x s).inbox = s.inbox := rfl
@[simp] theorem afterPhysAddr_env (x : Answer PhysAddr) :
    (afterPhysAddr x s).env = { s.env with physAddr := s.env.physAddr.tail, drawn := s.env.drawn + 1 } := rfl

@[simp] theorem afterTransmit_cfg (x : Answer Bool) : (afterTransmit req x s).cfg = s.cfg := rfl
@[simp] theorem afterTransmit_fault (x : Answer Bool) : (afterTransmit req x s).fault = s.fault := rfl
@[simp] theorem afterTransmit_ctxSelfLa (x : Answer Bool) :
    (afterTransmit req x s).ctxSelfLa = s.ctxSelfLa := rfl
@[simp] theorem afterTransmit_hist (x : Answer Bool) :
    (afterTransmit req x s).hist = s.hist ++ [.transmit req x] := rfl
@[simp] theorem afterTransmit_response (x : Answer Bool) :
    (afterTransmit req x s).response = s.response := rfl
@[simp] theorem afterTransmit_inbox (x : Answer Bool) : (afterTransmit req x s).inbox = s.inbox := rfl
@[simp] theorem afterTransmit_env (x : Answer Bool) :
    (afterTransmit req x s).env = { s.env with transmit := s.env.transmit.tail, drawn := s.env.drawn + 1 } := rfl

@[simp] theorem afterReceive_cfg (x : Answer (List Byte)) : (afterReceive x s).cfg = s.cfg := rfl
@[simp] theorem afterReceive_fault (x : Answer (List Byte)) : (afterReceive x s).fault = s.fault := rfl
@[simp] theorem afterReceive_ctxSelfLa (x : Answer (List Byte)) :
    (afterReceive x s).ctxSelfLa = s.ctxSelfLa := rfl
@[simp] theorem afterReceive_hist (x : Answer (List Byte)) :
    (afterReceive x s).hist = s.hist ++ [.receive x] := rfl
@[simp] theorem afterReceive_response (x : Answer (List Byte)) :
    (afterReceive x s).response = s.response := rfl
@[simp] theorem afterReceive_inbox (x : Answer (List Byte)) : (afterReceive x s).inbox = s.inbox := rfl
@[simp] theorem afterReceive_env (x : Answer (List Byte)) :
    (afterReceive x s).env = { s.env with receive := s.env.receive.tail, drawn := s.env.drawn + 1 } := rfl

@[simp] theorem afterDelivery_cfg : (afterDelivery bytes s).cfg = s.cfg := rfl
@[simp] theorem afterDelivery_fault : (afterDelivery bytes s).fault = s.fault := rfl
@[simp] theorem afterDelivery_ctxSelfLa : (afterDelivery bytes s).ctxSelfLa = s.ctxSelfLa := rfl
@[simp] theorem afterDelivery_hist : (afterDelivery bytes s).hist = s.hist ++ [.receive (.ok bytes)] := rfl
@[simp] theorem afterDelivery_response : (afterDelivery bytes s).response = s.response := rfl
@[simp] theorem afterDelivery_inbox : (afterDelivery bytes s).inbox = s.inbox := rfl
@[simp] theorem afterDelivery_env :
    (afterDelivery bytes s).env = { s.env with drawn := s.env.drawn + 1 } := rfl

@[simp] theorem resetWith_cfg (cfg : Config) : (State.resetWith cfg).cfg = cfg := rfl
@[simp] theorem resetWith_fault (cfg : Config) : (State.resetWith cfg).fault = none := rfl
@[simp] theorem resetWith_ctxSelfLa (cfg : Config) : (State.resetWith cfg).ctxSelfLa = none := rfl
@[simp] theorem resetWith_hist (cfg : Config) : (State.resetWith cfg).hist = [] := rfl
@[simp] theorem resetWith_response (cfg : Config) : (State.resetWith cfg).response = none := rfl
@[simp] theorem resetWith_inbox (cfg : Config) : (State.resetWith cfg).inbox = [] := rfl
@[simp] theorem resetWith_env (cfg : Config) : (State.resetWith cfg).env = Env.unscripted := rfl

end Sys2Proof.Machine
end

