-- ==== Sys2Proof/Laws/Ops.lean ====
section
/-! SUPPORT. For each shared operation, what it does: cited by the provers instead of unfolding it. The
inversion lemmas (`..._next`) say everything an operation that answers a next state can have done. -/

namespace Sys2Proof.Machine

/-! ## Bit fields and frames -/

@[simp] theorem hiNibble_header (i d : Nibble) : hiNibble (header i d) = i := by
  simp only [hiNibble, header]; revert i d; decide

@[simp] theorem loNibble_header (i d : Nibble) : loNibble (header i d) = d := by
  simp only [loNibble, header]; revert i d; decide

@[simp] theorem padTo_toList_take (n k : Nat) (l : List Byte) (hl : l.length ≤ n) (hk : k = l.length) :
    (padTo n l).toList.take k = l := by
  subst hk
  simp [padTo, Vector.toList, List.take_take, Nat.min_eq_left hl]

/-! ## Serving a request -/

theorem serve_of_faulted {body : State → Result} {s : State} {c : FaultCode} (h : s.fault = some c) :
    serve body s = .next (noResponse s) := by simp [serve, h]

theorem serve_of_healthy {body : State → Result} {s : State} (h : s.fault = none) :
    serve body s = body s := by simp [serve, h]

/-- A served request either was refused, or its body ran with FAULT clear. -/
theorem serve_next {body : State → Result} {s t : State} (h : serve body s = .next t) :
    (∃ c, s.fault = some c ∧ t = noResponse s) ∨ (s.fault = none ∧ body s = .next t) := by
  cases hf : s.fault with
  | some c => exact .inl ⟨c, rfl, by simpa [serve_of_faulted hf] using h.symm⟩
  | none => exact .inr ⟨rfl, by simpa [serve_of_healthy hf] using h⟩

/-- Every instruction is served: whatever it does, it does only with FAULT clear. -/
theorem exec_serves (i : Instr) (s : State) : ∃ body, exec i s = serve body s := by
  cases i <;>
    simp only [exec, execClassify, execDescribe, execDecode, execBuildPing, execBuildSimple,
      execBuildFeatureAbort, execBuildActiveSource, execTransmit, execDispatch, execHandleOne, execRegister,
      execGetPhysAddr, execReservedCmd0, execReservedCmdD, execReservedCmdE, execReservedCmdF, illegalCommand,
      execFramePoll, execFrameFeatureAbort, execFrameGiveDeviceVendorId, execFrameGetMenuLanguage,
      execFrameActiveSource, execFrameDeviceVendorId, execFrameVendorCommand,
      execFrameGiveDevicePowerStatus, execFrameMsgOther, receiveFrame] <;>
    exact ⟨_, rfl⟩

theorem withArgument_next {α : Type} {arg : Option α} {body : α → State → Result} {s t : State}
    (h : withArgument arg body s = .next t) :
    (arg = none ∧ t = raiseFault .illegalArgument s) ∨ (∃ a, arg = some a ∧ body a s = .next t) := by
  cases arg with
  | none => exact .inl ⟨rfl, by simpa [withArgument] using h.symm⟩
  | some a => exact .inr ⟨a, rfl, h⟩

theorem argumentIf_eq_some {α : Type} {ok : α → Bool} {arg : Option α} {a : α} :
    argumentIf ok arg = some a ↔ arg = some a ∧ ok a = true := by simp [argumentIf]

theorem argumentIf_of_ok {α : Type} {ok : α → Bool} {a : α} (h : ok a = true) :
    argumentIf ok (some a) = some a := by simp [argumentIf, h]

theorem argumentIf_of_not_ok {α : Type} {ok : α → Bool} {a : α} (h : ok a = false) :
    argumentIf ok (some a) = none := by simp [argumentIf, h]

/-! ## Table lookup -/

/-- The row for the opcode is the one found. -/
theorem lookup_of_row {α : Type} {op : Byte} {a : α} {table : List (Byte × α)}
    (h : (op, a) ∈ table) (only : ∀ b, (op, b) ∈ table → b = a) : lookup op table = some a := by
  induction table with
  | nil => simp at h
  | cons e rest ih =>
    obtain ⟨k, b⟩ := e
    by_cases hk : k = op
    · subst hk
      simp [lookup, only b (by simp)]
    · have hk' : op ≠ k := fun h => hk h.symm
      simp only [lookup, hk, if_false]
      exact ih (by simpa [hk'] using h) fun b hb => only b (List.mem_cons_of_mem _ hb)

/-- No row for the opcode, none found. -/
theorem lookup_of_unlisted {α : Type} {op : Byte} {table : List (Byte × α)}
    (h : ∀ e ∈ table, e.1 ≠ op) : lookup op table = none := by
  induction table with
  | nil => rfl
  | cons e rest ih =>
    simp only [List.mem_cons, forall_eq_or_imp] at h
    simpa [lookup, h.1] using ih h.2

/-! ## Transport calls -/

/-- A draw other than never is an answer. -/
theorem exists_answered {α : Type} {d : Draw α} (h : d ≠ .never) : ∃ r, d = .answered r := by
  cases d with
  | answered r => exact ⟨r, rfl⟩
  | never => exact absurd rfl h

@[simp] theorem nextDraw_cons {α : Type} (d : Draw α) (rest : List (Draw α)) (free : Draw α) :
    nextDraw (d :: rest) free = d := rfl

@[simp] theorem nextDraw_nil {α : Type} (free : Draw α) : nextDraw [] free = free := rfl

@[simp] theorem onDraw_answered {α : Type} (call : Call) (r : Answer α) (k : Answer α → Result) :
    onDraw call (.answered r) k = k r := rfl

@[simp] theorem onDraw_never {α : Type} (call : Call) (k : Answer α → Result) :
    onDraw call .never k = .fault (.hang call) := rfl

theorem onDraw_next {α : Type} {call : Call} {d : Draw α} {k : Answer α → Result} {t : State}
    (h : onDraw call d k = .next t) : ∃ r, d = .answered r ∧ k r = .next t := by
  cases d with
  | answered r => exact ⟨r, rfl, h⟩
  | never => simp at h

/-- One transmission attempt appends its event and relays its answer. -/
theorem transmitOnce_next {req : TxRequest} {k : Bool → Response} {s t : State}
    (h : transmitOnce req k s = .next t) :
    ∃ r, drawTransmit s req = .answered r ∧ t = respond (relay k r) (afterTransmit req r s) := by
  obtain ⟨r, hr, hk⟩ := onDraw_next h
  exact ⟨r, hr, by simpa using hk.symm⟩

/-- One transmission attempt that is never answered has no step. -/
theorem transmitOnce_of_never {req : TxRequest} {k : Bool → Response} {s : State}
    (h : drawTransmit s req = .never) : transmitOnce req k s = .fault (.hang .transmit) := by
  simp [transmitOnce, callTransmit, h]

theorem transmitOnce_of_answered {req : TxRequest} {k : Bool → Response} {s : State} {r : Answer Bool}
    (h : drawTransmit s req = .answered r) :
    transmitOnce req k s = .next (respond (relay k r) (afterTransmit req r s)) := by
  simp [transmitOnce, callTransmit, h]

/-! ## Decoding -/

/-- What DECODE accepts carries at most 14 operands, so its result can be dispatched. -/
theorem decodeBytes_wellFormed {cfg : Config} {bytes : List Byte} {r : DecodeResult}
    (h : decodeBytes cfg bytes = some r) : (carried r).wellFormed = true := by
  match bytes with
  | [] => simp [decodeBytes] at h
  | [_] =>
    simp only [decodeBytes, Option.some.injEq] at h
    subst h; rfl
  | _ :: _ :: operands =>
    simp only [decodeBytes] at h
    split at h
    · rename_i hl
      simp only [Option.some.injEq] at h
      subst h
      simp only [decodeMessage]
      split <;> try rfl
      split <;> try rfl
      split <;> try rfl
      split <;> try rfl
      simpa [carried, CarriedResult.wellFormed, operandsFit] using hl
    · simp at h

/-- DECODE has a result exactly for 1 to 16 bytes. -/
theorem decodeBytes_isSome {cfg : Config} {bytes : List Byte} :
    (decodeBytes cfg bytes).isSome = true ↔ 1 ≤ bytes.length ∧ bytes.length ≤ 16 := by
  match bytes with
  | [] => simp [decodeBytes]
  | [_] => simp [decodeBytes]
  | _ :: _ :: operands =>
    simp only [decodeBytes, List.length_cons]
    split <;> rename_i hl <;> simp only [maxPayload] at hl <;> simp <;> omega

/-- A frame the decoder accepts decodes to the message it says. -/
theorem decodeBytes_of_accepted {cfg : Config} {i d : Nibble} {op : Byte} {ops : List Byte}
    (h : accepted cfg d op ops.length) :
    decodeBytes cfg (header i d :: op :: ops) = some (.message i d op ops (describe cfg op)) := by
  obtain ⟨flag, lo, hi, fit⟩ := h
  simp only [decodeBytes, decodeMessage, hiNibble_header, loNibble_header, maxPayload, fit, if_true]
  by_cases hd : d = 15#4 <;> simp_all [lengthSatisfies]

/-! ## Dispatching -/

/-- Everything the reply to a GIVE_DEVICE_VENDOR_ID can do. -/
theorem vendorIdRequested_next {sender : Nibble} {s t : State}
    (h : vendorIdRequested sender s = .next t) :
    (s.ctxSelfLa = none ∧ t = raiseFault .unregistered s) ∨
    (∃ self r, s.ctxSelfLa = some self ∧
      t = respond (relay (fun ack => .dispatched (.replied ack)) r)
        (afterTransmit (featureAbortRequest self sender opGiveDeviceVendorId 0x00) r s)) := by
  unfold vendorIdRequested at h
  split at h
  · exact .inl ⟨‹_›, by simpa using h.symm⟩
  · obtain ⟨r, _, rfl⟩ := transmitOnce_next h
    exact .inr ⟨_, r, ‹_›, rfl⟩

/-- Everything DISPATCH can do with one result: a disposition with no call, a fault with no call, or the one
reply. -/
theorem dispatchResult_next {dr : CarriedResult} {s t : State} (h : dispatchResult dr s = .next t) :
    (∃ d, t = respond (.dispatched d) s) ∨
    (s.ctxSelfLa = none ∧ t = raiseFault .unregistered s) ∨
    (∃ i d operands self r, dr = .message i d opGiveDeviceVendorId operands ∧ s.ctxSelfLa = some self ∧
      t = respond (relay (fun ack => .dispatched (.replied ack)) r)
        (afterTransmit (featureAbortRequest self i opGiveDeviceVendorId 0x00) r s)) := by
  cases dr with
  | err k => exact .inl ⟨_, by simpa [dispatchResult] using h.symm⟩
  | polling i d => exact .inl ⟨_, by simpa [dispatchResult] using h.symm⟩
  | message i d op operands =>
    simp only [dispatchResult, dispatchMessage] at h
    split at h
    · exact .inl ⟨_, by simpa using h.symm⟩
    · split at h
      · subst op
        rcases vendorIdRequested_next h with h | ⟨self, r, hs, ht⟩
        · exact .inr (.inl h)
        · exact .inr (.inr ⟨i, d, operands, self, r, rfl, hs, ht⟩)
      · refine .inl ?_
        split at h
        · exact ⟨_, by simpa using h.symm⟩
        · split at h <;> exact ⟨_, by simpa using h.symm⟩

/-- Everything the codec can do with received bytes. -/
theorem handleReceived_next {bytes : List Byte} {s t : State} (h : handleReceived bytes s = .next t) :
    (decodeBytes s.cfg bytes = none ∧ t = raiseFault .lengthContract s) ∨
    (∃ r, decodeBytes s.cfg bytes = some r ∧ dispatchResult (carried r) s = .next t) := by
  unfold handleReceived at h
  split at h
  · exact .inl ⟨‹_›, by simpa using h.symm⟩
  · exact .inr ⟨_, ‹_›, h⟩

end Sys2Proof.Machine
end

