-- ==== Sys2Proof/Laws/PerInstr.lean ====
section
/-! SUPPORT. Statements for all instructions, one lemma per constructor. `EncodesLegally`: a well-formed
instruction encodes as its row of spec/opcode_table.json says: a request with the row's command code
(spec/30_encoding.md R69), or a frame of 1 to 16 bytes (R60). -/

namespace Sys2Proof.Laws.EncodesLegally

open Sys2Proof.Machine

/-- A request has this command code; a frame has 1 to 16 bytes. -/
def legalItem (cmd : Option Nibble) : Item → Prop
  | .request b => some b.cmd = cmd
  | .frame bytes => cmd = none ∧ 1 ≤ bytes.length ∧ bytes.length ≤ 16

/-- The command code of a request's row (R69); a frame row has none. -/
def rowCode : Instr → Option Nibble
  | .classify _ => some 0x1
  | .describe _ => some 0x2
  | .decode _ _ => some 0x3
  | .buildPing _ _ => some 0x4
  | .buildSimple _ _ _ => some 0x5
  | .buildFeatureAbort _ _ _ _ => some 0x6
  | .buildActiveSource _ _ => some 0x7
  | .transmit _ => some 0x8
  | .dispatch _ => some 0x9
  | .handleOne => some 0xA
  | .register _ => some 0xB
  | .getPhysAddr => some 0xC
  | .reservedCmd0 => some 0x0
  | .reservedCmdD => some 0xD
  | .reservedCmdE => some 0xE
  | .reservedCmdF => some 0xF
  | _ => none

/-- The family's statement. -/
def Statement (i : Instr) : Prop :=
  ∀ cfg : Config, i.wellFormed cfg = true → legalItem (rowCode i) (encode cfg i)

/-- A MSG frame with at most 14 operands is legal. -/
theorem frameBytes_legal {i d : Nibble} {op : Byte} {operands : List Byte}
    (h : operandsFit operands = true) : legalItem none (.frame (frameBytes i d op operands)) := by
  have h' : operands.length ≤ 14 := by simpa [operandsFit] using h
  simp [legalItem, frameBytes]; omega

theorem classify (op : Byte) : Statement (.classify op) := fun _ _ => rfl
theorem describe (op : Byte) : Statement (.describe op) := fun _ _ => rfl
theorem decode (flen : FrameLen) (fbytes : Vector Byte 16) : Statement (.decode flen fbytes) :=
  fun _ _ => rfl
theorem buildPing (i d : Nibble) : Statement (.buildPing i d) := fun _ _ => rfl
theorem buildSimple (i d : Nibble) (op : Byte) : Statement (.buildSimple i d op) := fun _ _ => rfl
theorem buildFeatureAbort (i d : Nibble) (aop reason : Byte) :
    Statement (.buildFeatureAbort i d aop reason) := fun _ _ => rfl
theorem buildActiveSource (i : Nibble) (pa : PhysAddr) : Statement (.buildActiveSource i pa) :=
  fun _ _ => rfl
theorem transmit (req : Option TxRequest) : Statement (.transmit req) := by
  intro cfg _; cases req <;> rfl
theorem dispatch (dres : Option CarriedResult) : Statement (.dispatch dres) := by
  intro cfg _; cases dres <;> rfl
theorem handleOne : Statement .handleOne := fun _ _ => rfl
theorem register (la : Nibble) : Statement (.register la) := fun _ _ => rfl
theorem getPhysAddr : Statement .getPhysAddr := fun _ _ => rfl
theorem reservedCmd0 : Statement .reservedCmd0 := fun _ _ => rfl
theorem reservedCmdD : Statement .reservedCmdD := fun _ _ => rfl
theorem reservedCmdE : Statement .reservedCmdE := fun _ _ => rfl
theorem reservedCmdF : Statement .reservedCmdF := fun _ _ => rfl
theorem framePoll (i d : Nibble) : Statement (.framePoll i d) :=
  fun _ _ => show legalItem none (.frame [header i d]) from ⟨rfl, by simp, by simp⟩
theorem frameFeatureAbort (i d : Nibble) (ops : List Byte) : Statement (.frameFeatureAbort i d ops) :=
  fun _ h => show legalItem none _ from frameBytes_legal h
theorem frameGiveDeviceVendorId (i d : Nibble) (ops : List Byte) :
    Statement (.frameGiveDeviceVendorId i d ops) :=
  fun _ h => show legalItem none _ from frameBytes_legal h
theorem frameGetMenuLanguage (i d : Nibble) (ops : List Byte) :
    Statement (.frameGetMenuLanguage i d ops) :=
  fun _ h => show legalItem none _ from frameBytes_legal ((Bool.and_eq_true _ _).mp h).1
theorem frameActiveSource (i d : Nibble) (ops : List Byte) : Statement (.frameActiveSource i d ops) :=
  fun _ h => show legalItem none _ from frameBytes_legal ((Bool.and_eq_true _ _).mp h).1
theorem frameDeviceVendorId (i d : Nibble) (ops : List Byte) :
    Statement (.frameDeviceVendorId i d ops) :=
  fun _ h => show legalItem none _ from frameBytes_legal ((Bool.and_eq_true _ _).mp h).1
theorem frameVendorCommand (i d : Nibble) (ops : List Byte) : Statement (.frameVendorCommand i d ops) :=
  fun _ h => show legalItem none _ from frameBytes_legal ((Bool.and_eq_true _ _).mp h).1
theorem frameGiveDevicePowerStatus (i d : Nibble) (ops : List Byte) :
    Statement (.frameGiveDevicePowerStatus i d ops) :=
  fun _ h => show legalItem none _ from frameBytes_legal ((Bool.and_eq_true _ _).mp h).1
theorem frameMsgOther (i d : Nibble) (op : Byte) (ops : List Byte) :
    Statement (.frameMsgOther i d op ops) :=
  fun _ h => show legalItem none _ from frameBytes_legal ((Bool.and_eq_true _ _).mp h).1

end Sys2Proof.Laws.EncodesLegally
end

