-- ==== Sys2Proof/Certificates/Slice0/Obligations.lean ====
section
/-! DEFINITION. The statements about the codec. Each docstring names the rules of spec/ it formalises; where it
rests on a decision the spec marks as its own, or on a choice of the model, it says so.

A statement `exec i s = .next { s with ... }` says three things at once: the instruction completes, what it
changes, and that it changes nothing else (its frame). The codec has no registers, flags or memory besides
the fields of State (spec/10_state.md R20, R21, R27; spec/20_memory.md R40). -/

open Sys2Proof Sys2Proof.Machine

/-! ## Encodings (spec/30_encoding.md) -/

/-- R61: the header byte is initiator times 16 plus destination, and its nibbles read back. -/
def Obligations.HeaderByteNibbles : Prop :=
  (∀ i d : Nibble, (header i d).toNat = 16 * i.toNat + d.toNat ∧ hiNibble (header i d) = i ∧
    loNibble (header i d) = d) ∧
  ∀ b : Byte, header (hiNibble b) (loNibble b) = b

/-- R60: bytes are a frame exactly when there are 1 to 16; one byte is a POLL frame, two or more a MSG frame
whose byte 0 is the header, byte 1 the opcode and bytes 2 to n-1 the operands. -/
def Obligations.FrameFormatsByLength : Prop :=
  ∀ (cfg : Config) (bytes : List Byte),
    ((∃ i, decodeFrame cfg bytes = .ok i) ↔ 1 ≤ bytes.length ∧ bytes.length ≤ 16) ∧
    (∀ b0, bytes = [b0] → decodeFrame cfg bytes = .ok (.framePoll (hiNibble b0) (loNibble b0))) ∧
    (∀ i, decodeFrame cfg bytes = .ok i → 2 ≤ bytes.length →
      ∃ b0 b1, bytes = b0 :: b1 :: bytes.drop 2 ∧
        messageFields cfg i = some (hiNibble b0, loNibble b0, b1, bytes.drop 2))

/-- Every well-formed instruction is what its encoding decodes to, whatever its operands: no bit of an encoding
is dropped. Rests on R60, R61, R68 to R71 and on the model's choice of the frame rows' order (log 10). -/
def Obligations.DecodeEncodeRoundTrip : Prop :=
  ∀ (cfg : Config) (i : Instr), i.wellFormed cfg = true → decodeItem cfg (encode cfg i) = .ok i

/-- Every byte sequence that is a frame is the encoding of the instruction it decodes to, which is well formed:
each frame has one meaning. Rests on R60 to R66 (frame rows: log 10). -/
def Obligations.FrameEncodeDecode : Prop :=
  ∀ (cfg : Config) (bytes : List Byte) (i : Instr), decodeFrame cfg bytes = .ok i →
    encode cfg i = .frame bytes ∧ i.wellFormed cfg = true

/-- A handful of inputs written out from the spec decode to the instruction they stand for: 95_test_vectors.md
P1, P2 and P4, and the frames of Scenarios A to D. -/
def Obligations.WrittenWordsDecode : Prop :=
  decodeRequest { cmd := 0xB, la := 0x4 } = .register 4 ∧
  decodeRequest { cmd := 0x7, init := 0x3, pa := 0x1200 } = .buildActiveSource 3 0x1200 ∧
  decodeRequest { cmd := 0x6, init := 0x4, dest := 0x0, aop := 0x91, reason := 0x09 } =
    .buildFeatureAbort 4 0 0x91 9 ∧
  decodeTxBundle
      { initiator := 3, destination := 0xF, hasOpcode := 1, opcode := 0x82, oplen := 2,
        operands := #v[0x12, 0, 0, 0, 0, 0, 0, 0, 0, 0, 0, 0, 0, 0], retry := 5 } =
    some
      { initiator := 3, destination := 15, opcode := some 0x82, operands := [0x12, 0x00], retry := 5 } ∧
  decodeItem tc1 (.frame [0x03]) = .ok (.framePoll 0 3) ∧
  decodeItem tc1 (.frame [0x03, 0x00, 0x8C, 0x00]) = .ok (.frameFeatureAbort 0 3 [0x8C, 0x00]) ∧
  decodeItem tc1 (.frame [0x0F, 0x8C]) = .ok (.frameGiveDeviceVendorId 0 15 []) ∧
  decodeItem tc1 (.frame [0x03, 0x91, 0x11, 0x22]) = .ok (.frameGetMenuLanguage 0 3 [0x11, 0x22])

/-- R68: a field that a command does not use has no effect: requests that agree on `cmd` and on the used fields
do the same in every state. The bundle is the spec's own decision D5. -/
def Obligations.UnusedFieldsHaveNoEffect : Prop :=
  ∀ (a b : Bundle) (s : State), sameUsedFields a b →
    exec (decodeRequest a) s = exec (decodeRequest b) s

/-- R70, R71: exactly the bundles those rules name are malformed. The bundles are the spec's own decision D5. -/
def Obligations.MalformedBundlesExactly : Prop :=
  (∀ b : TxBundle, decodeTxBundle b = none ↔ b.oplen = 15 ∨ (b.hasOpcode = 0 ∧ b.oplen ≠ 0)) ∧
  (∀ b : DresBundle, decodeDresBundle b = none ↔
    4 < b.status.toNat ∨ (b.status = 0 ∧ b.kind = 1 ∧ b.oplen = 15)) ∧
  (∀ (b : TxBundle) (req : TxRequest), decodeTxBundle b = some req → req.wellFormed = true) ∧
  (∀ (b : DresBundle) (r : CarriedResult), decodeDresBundle b = some r → r.wellFormed = true)

/-- R70, R160: the wire image of a well-formed request has 1 to 16 bytes, is a frame, and carries the request's
fields; a built request's image has at most 4 bytes (which the spec derives from R161 to R164). -/
def Obligations.WireImageIsAFrame : Prop :=
  (∀ req : TxRequest, req.wellFormed = true →
    1 ≤ (wireImage req).length ∧ (wireImage req).length ≤ 16 ∧
    ∀ cfg : Config, ∃ i, decodeFrame cfg (wireImage req) = .ok i ∧
      (req.opcode = none → i = .framePoll req.initiator req.destination) ∧
      (∀ op, req.opcode = some op →
        messageFields cfg i = some (req.initiator, req.destination, op, req.operands))) ∧
  (∀ (i : Instr) (s t : State) (req : TxRequest), isPure i = true → exec i s = .next t →
    t.response = some (.built req) →
    req.wellFormed = true ∧ req.retry = 5 ∧ (wireImage req).length ≤ 4)

/-! ## Tables (spec/40_tables.md) -/

/-- R102: CLASSIFY answers with the row OPCODE_TABLE has for the opcode; it has no error path and nothing else
changes. -/
def Obligations.ClassifyReturnsTableRow : Prop :=
  ∀ (op : Byte) (s : State) (p : OpcodeProperties), s.fault = none →
    (op, p) ∈ s.cfg.opcodeTable → (∀ q, (op, q) ∈ s.cfg.opcodeTable → q = p) →
    exec (.classify op) s = .next { s with response := some (.classified p) } ∧
    responseBundle (.classified p) =
      { status := 0, directedAllowed := some p.directedAllowed, broadcastAllowed := some p.broadcastAllowed,
        lengthClass := some p.lengthClass }

/-- R104: an opcode the table does not list is unsupported: both flags false, and class 0 (the spec's decision D21).
CLASSIFY answers so, and DECODE rejects every message frame of it. -/
def Obligations.UnlistedOpcodeIsUnsupported : Prop :=
  ∀ (op : Byte) (s : State), s.fault = none → (∀ e ∈ s.cfg.opcodeTable, e.1 ≠ op) →
    exec (.classify op) s = .next { s with response := some (.classified
      { directedAllowed := false, broadcastAllowed := false, lengthClass := 0 }) } ∧
    ∀ (h : Byte) (ops : List Byte), ops.length ≤ 14 →
      decodeBytes s.cfg (h :: op :: ops) = some (.err .unsupportedOpcode)

/-- R103: DESCRIBE answers Known with the text DESCRIPTION_TABLE has for the opcode, and Unsupported, shown as
SENTINEL_TEXT, where it has none; the opcode table is not read; nothing else changes. -/
def Obligations.DescribeReadsDescriptionTableAlone : Prop :=
  ∀ (op : Byte) (s : State), s.fault = none →
    (∀ t : DescText, (op, t) ∈ s.cfg.descriptionTable →
      (∀ u, (op, u) ∈ s.cfg.descriptionTable → u = t) →
      exec (.describe op) s = .next { s with response := some (.described (.known t)) }) ∧
    ((∀ e ∈ s.cfg.descriptionTable, e.1 ≠ op) →
      exec (.describe op) s = .next { s with response := some (.described .unsupported) } ∧
      shownDescription s.cfg .unsupported = s.cfg.sentinelText)

/-! ## DECODE (spec/41_decoder.md) -/

/-- R131: a length of 0 or above 16 raises F_LENGTH_CONTRACT and gives no response. The spec's decision D10. -/
def Obligations.DecodeLengthContract : Prop :=
  ∀ (flen : FrameLen) (fb : Vector Byte 16) (s : State), s.fault = none →
    flen.toNat = 0 ∨ 16 < flen.toNat →
    exec (.decode flen fb) s = .next { s with fault := some .lengthContract, response := none }

/-- R133: a frame of length 1 decodes to Polling, whatever its header and the tables. -/
def Obligations.DecodePolling : Prop :=
  ∀ (fb : Vector Byte 16) (s : State), s.fault = none →
    exec (.decode 1 fb) s =
      .next { s with response := some (.decoded (.polling (hiNibble fb[0]) (loNibble fb[0]))) }

/-- R132, R134 to R138: on a frame of 2 to 16 bytes DECODE runs steps 2 to 6 in order, the first failing check
wins, and an accepted frame's operands are its bytes from the third on; nothing but the response changes. -/
def Obligations.DecodeChecksInOrder : Prop :=
  ∀ (flen : FrameLen) (fb : Vector Byte 16) (s : State), s.fault = none →
    2 ≤ flen.toNat → flen.toNat ≤ 16 →
    let dest := loNibble fb[0]
    let p := classify s.cfg fb[1]
    let c := lengthClassOf s.cfg p.lengthClass
    let len := flen.toNat - 2
    exec (.decode flen fb) s = .next { s with response := some (.decoded (
      if p.directedAllowed = false ∧ p.broadcastAllowed = false then .err .unsupportedOpcode
      else if dest = 0xF ∧ p.broadcastAllowed = false then .err .broadcastMismatch
      else if dest ≠ 0xF ∧ p.directedAllowed = false then .err .directedMismatch
      else if len < c.min ∨ c.max < len then .err .invalidPayloadLength
      else .message (hiNibble fb[0]) dest fb[1] ((fb.toList.drop 2).take len)
        (describe s.cfg fb[1]))) }

/-- R139: DECODE reads only its argument and the configuration, and writes nothing but FAULT under R131. -/
def Obligations.DecodeIsPure : Prop :=
  ∀ (flen : FrameLen) (fb : Vector Byte 16) (s s' : State), s.fault = none → s'.fault = none →
    s.cfg = s'.cfg → ∃ (f : Option FaultCode) (r : Option Response),
      exec (.decode flen fb) s = .next { s with fault := f, response := r } ∧
      exec (.decode flen fb) s' = .next { s' with fault := f, response := r } ∧
      (f = none ∨ (f = some .lengthContract ∧ r = none ∧ (flen.toNat = 0 ∨ 16 < flen.toNat)))

/-- R142 (a) to (e), which the spec derives from R134 to R138: the laws of the decoder for every configuration,
initiator, destination and up to 14 operands. -/
def Obligations.DecoderLaws : Prop :=
  ∀ (cfg : Config) (i d : Nibble) (o : Byte) (ops : List Byte), ops.length ≤ 14 →
    let p := classify cfg o
    let r := decodeBytes cfg (header i d :: o :: ops)
    (recognized p = false → r = some (.err .unsupportedOpcode)) ∧
    (recognized p = true → d = 0xF → p.broadcastAllowed = false → r = some (.err .broadcastMismatch)) ∧
    (recognized p = true → d ≠ 0xF → p.directedAllowed = false → r = some (.err .directedMismatch)) ∧
    ((if d = 0xF then p.broadcastAllowed else p.directedAllowed) = true →
      (lengthSatisfies (lengthClassOf cfg p.lengthClass) ops.length = true ∧
        r = some (.message i d o ops (describe cfg o))) ∨
      (lengthSatisfies (lengthClassOf cfg p.lengthClass) ops.length = false ∧
        r = some (.err .invalidPayloadLength)))

/-! ## Builders (spec/42_builder.md) -/

/-- R161: a ping has no opcode and no operands; its wire image is the header byte alone (the spec's decision
D13). -/
def Obligations.BuildPingIsHeaderOnly : Prop :=
  ∀ (i d : Nibble) (s : State), s.fault = none → ∃ req : TxRequest,
    exec (.buildPing i d) s = .next { s with response := some (.built req) } ∧
    req = { initiator := i, destination := d, opcode := none, operands := [], retry := 5 } ∧
    wireImage req = [header i d]

/-- R162: a simple command has the given opcode and no operands. -/
def Obligations.BuildSimpleHasNoOperands : Prop :=
  ∀ (i d : Nibble) (op : Byte) (s : State), s.fault = none → ∃ req : TxRequest,
    exec (.buildSimple i d op) s = .next { s with response := some (.built req) } ∧
    req = { initiator := i, destination := d, opcode := some op, operands := [], retry := 5 } ∧
    wireImage req = [header i d, op]

/-- R163: a feature abort carries the aborted opcode and the reason; a reason byte above 0x04 is answered with
INVALID_BUILD_INPUT, status 6, and no request (R165, the spec's decision D14). -/
def Obligations.BuildFeatureAbortChecksReason : Prop :=
  ∀ (i d : Nibble) (aop reason : Byte) (s : State), s.fault = none →
    (reason.toNat ≤ 4 → ∃ req : TxRequest,
      exec (.buildFeatureAbort i d aop reason) s = .next { s with response := some (.built req) } ∧
      req = { initiator := i, destination := d, opcode := some 0x00, operands := [aop, reason], retry := 5 } ∧
      wireImage req = [header i d, 0x00, aop, reason]) ∧
    (4 < reason.toNat →
      exec (.buildFeatureAbort i d aop reason) s = .next { s with response := some .invalidBuildInput } ∧
      responseBundle .invalidBuildInput = { status := 6 })

/-- R164, R43: active source is always broadcast, its opcode is OP_ACTIVE_SOURCE, and its two operands are the
physical address, high byte first. -/
def Obligations.BuildActiveSourceIsBigEndian : Prop :=
  ∀ (i : Nibble) (pa : PhysAddr) (s : State), s.fault = none → ∃ (req : TxRequest) (hi lo : Byte),
    exec (.buildActiveSource i pa) s = .next { s with response := some (.built req) } ∧
    req = { initiator := i, destination := 0xF, opcode := some s.cfg.opActiveSource, operands := [hi, lo],
            retry := 5 } ∧
    pa.toNat = 256 * hi.toNat + lo.toNat ∧
    wireImage req = [header i 0xF, s.cfg.opActiveSource, hi, lo]

/-- R166, which the spec derives: a built feature abort to a unicast address decodes, under R106's constraint, to
the message it was built as; a built active source does under R109's. -/
def Obligations.BuildersRoundTripThroughDecoder : Prop :=
  ∀ (cfg : Config) (i d : Nibble) (aop reason : Byte) (pa : PhysAddr),
    (conformsFeatureAbort cfg = true → d ≠ 0xF →
      decodeBytes cfg (wireImage (featureAbortRequest i d aop reason)) =
        some (.message i d 0x00 [aop, reason] (describe cfg 0x00))) ∧
    (conformsActiveSource cfg = true → ∃ hi lo : Byte, pa.toNat = 256 * hi.toNat + lo.toNat ∧
      decodeBytes cfg (wireImage (activeSourceRequest cfg i pa)) =
        some (.message i 0xF cfg.opActiveSource [hi, lo] (describe cfg cfg.opActiveSource)))

/-! ## TRANSMIT, REGISTER, GET_PHYS_ADDR (spec/43_dispatch.md) -/

/-- R190: TRANSMIT makes exactly one call with the request as given, records it, and answers with what the
transport reported: `ack`, or the error unchanged. -/
def Obligations.TransmitMakesOneCall : Prop :=
  ∀ (req : TxRequest) (s : State) (r : Answer Bool), s.fault = none → req.wellFormed = true →
    drawTransmit s req = .answered r →
    exec (.transmit (some req)) s = .next { s with
      hist := s.hist ++ [.transmit req r]
      env := { s.env with transmit := s.env.transmit.tail, drawn := s.env.drawn + 1 }
      response := some (match r with
        | .ok ack => .transmitted ack
        | .err e => .transportError e) }

/-- R79: a TRANSMIT or DISPATCH whose bundle is malformed raises F_ILLEGAL_ARGUMENT; no call is made, nothing
else changes, and there is no response. The spec's own decision D5. An argument no bundle can carry counts as
malformed (the model's choice, log 12). -/
def Obligations.MalformedArgumentFaults : Prop :=
  ∀ s : State, s.fault = none →
    exec (.transmit none) s = .next { s with fault := some .illegalArgument, response := none } ∧
    exec (.dispatch none) s = .next { s with fault := some .illegalArgument, response := none } ∧
    (∀ req : TxRequest, req.wellFormed = false →
      exec (.transmit (some req)) s = .next { s with fault := some .illegalArgument, response := none }) ∧
    (∀ r : CarriedResult, r.wellFormed = false →
      exec (.dispatch (some r)) s = .next { s with fault := some .illegalArgument, response := none })

/-- R201: REGISTER records its call; CTX_SELF_LA becomes `la` where the transport accepts and stays otherwise.
The spec's own decisions D12 and D32. -/
def Obligations.RegisterWritesSelfOnAcceptance : Prop :=
  ∀ (la : Nibble) (s : State) (r : Answer Unit), s.fault = none → drawRegister s la = .answered r →
    exec (.register la) s = .next { s with
      hist := s.hist ++ [.register la r]
      env := { s.env with register := s.env.register.tail, drawn := s.env.drawn + 1 }
      ctxSelfLa := match r with
        | .ok () => some la
        | .err _ => s.ctxSelfLa
      response := some (match r with
        | .ok () => .registered
        | .err e => .transportError e) }

/-- R202: GET_PHYS_ADDR asks the transport, records the call and answers with the address or the error. -/
def Obligations.GetPhysAddrAsksTransport : Prop :=
  ∀ (s : State) (r : Answer PhysAddr), s.fault = none → drawPhysAddr s = .answered r →
    exec .getPhysAddr s = .next { s with
      hist := s.hist ++ [.getPhysAddr r]
      env := { s.env with physAddr := s.env.physAddr.tail, drawn := s.env.drawn + 1 }
      response := some (match r with
        | .ok pa => .physAddr pa
        | .err e => .transportError e) }

/-- R244: every transport call's error becomes the response TRANSPORT_ERROR of the request that made the call,
the error value unchanged; the codec's state stays as it was before the call, but for the event in HIST (and
the environment's own bookkeeping, log 4). -/
def Obligations.TransportErrorsAreRelayed : Prop :=
  ∀ (s : State) (e : TransportErr), s.fault = none →
    (∀ la, drawRegister s la = .answered (.err e) → exec (.register la) s =
      .next { s with
        hist := s.hist ++ [.register la (.err e)]
        env := { s.env with register := s.env.register.tail, drawn := s.env.drawn + 1 }
        response := some (.transportError e) }) ∧
    (drawPhysAddr s = .answered (.err e) → exec .getPhysAddr s =
      .next { s with
        hist := s.hist ++ [.getPhysAddr (.err e)]
        env := { s.env with physAddr := s.env.physAddr.tail, drawn := s.env.drawn + 1 }
        response := some (.transportError e) }) ∧
    (drawReceive s = .answered (.err e) → exec .handleOne s =
      .next { s with
        hist := s.hist ++ [.receive (.err e)]
        env := { s.env with receive := s.env.receive.tail, drawn := s.env.drawn + 1 }
        response := some (.transportError e) }) ∧
    (∀ req : TxRequest, req.wellFormed = true → drawTransmit s req = .answered (.err e) →
      ∃ t : State, t = { s with
          hist := s.hist ++ [.transmit req (.err e)]
          env := { s.env with transmit := s.env.transmit.tail, drawn := s.env.drawn + 1 }
          response := some (.transportError e) } ∧
        exec (.transmit (some req)) s = .next t ∧
        ∀ (self sender dest : Nibble) (ops : List Byte), s.ctxSelfLa = some self → ops.length ≤ 14 →
          req = { initiator := self, destination := sender, opcode := some 0x00, operands := [0x8C, 0x00],
                  retry := 5 } →
          exec (.dispatch (some (.message sender dest 0x8C ops))) s = .next t) ∧
    ∀ (bytes : List Byte) (self sender dest : Nibble) (ops : List Byte) (desc : Description) (u : State)
      (req : TxRequest), drawReceive s = .answered (.ok bytes) →
      decodeBytes s.cfg bytes = some (.message sender dest 0x8C ops desc) → s.ctxSelfLa = some self →
      u = { s with
        hist := s.hist ++ [.receive (.ok bytes)]
        env := { s.env with receive := s.env.receive.tail, drawn := s.env.drawn + 1 } } →
      req = { initiator := self, destination := sender, opcode := some 0x00, operands := [0x8C, 0x00],
              retry := 5 } →
      drawTransmit u req = .answered (.err e) →
      exec .handleOne s = .next { u with
        hist := u.hist ++ [.transmit req (.err e)]
        env := { u.env with transmit := u.env.transmit.tail, drawn := u.env.drawn + 1 }
        response := some (.transportError e) }

/-- R264: while a call is unanswered the codec has no step. Wherever the environment's draw for a call is that it never
answers, the machine stops so: the one call of REGISTER, GET_PHYS_ADDR and TRANSMIT, the receive of HANDLE_ONE,
and the reply's transmit in DISPATCH, in HANDLE_ONE after its receive, and after a received frame of opcode 0x8C
(the spec's decision D26; the named stop is the model's form of it, log 5; frame rows: log 9). -/
def Obligations.UnansweredCallHasNoStep : Prop :=
  ∀ s : State, s.fault = none →
    (∀ la, drawRegister s la = .never → exec (.register la) s = .fault (.hang .registerDevice)) ∧
    (drawPhysAddr s = .never → exec .getPhysAddr s = .fault (.hang .getPhysicalAddress)) ∧
    (drawReceive s = .never → exec .handleOne s = .fault (.hang .receive)) ∧
    (∀ req : TxRequest, req.wellFormed = true → drawTransmit s req = .never →
      exec (.transmit (some req)) s = .fault (.hang .transmit)) ∧
    ∀ (self i d : Nibble) (ops : List Byte) (req : TxRequest), s.ctxSelfLa = some self →
      req = { initiator := self, destination := i, opcode := some 0x00, operands := [0x8C, 0x00],
              retry := 5 } →
      (ops.length ≤ 14 → drawTransmit s req = .never →
        exec (.dispatch (some (.message i d 0x8C ops))) s = .fault (.hang .transmit)) ∧
      (∀ (bytes : List Byte) (desc : Description) (u : State), drawReceive s = .answered (.ok bytes) →
        decodeBytes s.cfg bytes = some (.message i d 0x8C ops desc) →
        u = { s with
          hist := s.hist ++ [.receive (.ok bytes)]
          env := { s.env with receive := s.env.receive.tail, drawn := s.env.drawn + 1 } } →
        drawTransmit u req = .never → exec .handleOne s = .fault (.hang .transmit)) ∧
      (∀ (ins : Instr) (u : State), messageFields s.cfg ins = some (i, d, 0x8C, ops) →
        accepted s.cfg d 0x8C ops.length →
        u = { s with
          hist := s.hist ++ [.receive (.ok (header i d :: 0x8C :: ops))]
          env := { s.env with drawn := s.env.drawn + 1 } } →
        drawTransmit u req = .never → exec ins s = .fault (.hang .transmit))

/-! ## DISPATCH and HANDLE_ONE (spec/43_dispatch.md) -/

/-- R192, R193: a decode error is dropped with its code and a poll takes the default path; no call, no reply. The
spec's own decisions D16 and D18. -/
def Obligations.DispatchDropsErrorsDefaultsPolls : Prop :=
  ∀ s : State, s.fault = none →
    (∀ k : DecodeError, exec (.dispatch (some (.err k))) s =
      .next { s with response := some (.dispatched (.dropped k)) }) ∧
    ∀ i d : Nibble, exec (.dispatch (some (.polling i d))) s =
      .next { s with response := some (.dispatched .default) }

/-- R194: a received FEATURE_ABORT with two operands is reported with its aborted opcode, its reason byte and
whether the byte is 0x00 to 0x04; with any other count it is malformed; no call, no reply. -/
def Obligations.DispatchFeatureAbort : Prop :=
  ∀ (i d : Nibble) (ops : List Byte) (s : State), s.fault = none → ops.length ≤ 14 →
    (∀ aop rb : Byte, ops = [aop, rb] → exec (.dispatch (some (.message i d 0x00 ops))) s =
      .next { s with
        response := some (.dispatched (.featureAbortInfo aop rb (decide (rb.toNat ≤ 4)))) }) ∧
    (ops.length ≠ 2 → exec (.dispatch (some (.message i d 0x00 ops))) s =
      .next { s with response := some (.dispatched .featureAbortMalformed) })

/-- R196: a GIVE_DEVICE_VENDOR_ID is answered, in one attempt, with a feature abort from CTX_SELF_LA to the
sender whatever the destination; with CTX_SELF_LA unwritten the codec faults before any call. -/
def Obligations.DispatchVendorIdReply : Prop :=
  ∀ (i d : Nibble) (ops : List Byte) (s : State), s.fault = none → ops.length ≤ 14 →
    (s.ctxSelfLa = none → exec (.dispatch (some (.message i d 0x8C ops))) s =
      .next { s with fault := some .unregistered, response := none }) ∧
    (∀ (self : Nibble) (req : TxRequest) (r : Answer Bool), s.ctxSelfLa = some self →
      req = { initiator := self, destination := i, opcode := some 0x00, operands := [0x8C, 0x00],
              retry := 5 } →
      drawTransmit s req = .answered r →
      exec (.dispatch (some (.message i d 0x8C ops))) s = .next { s with
        hist := s.hist ++ [.transmit req r]
        env := { s.env with transmit := s.env.transmit.tail, drawn := s.env.drawn + 1 }
        response := some (match r with
          | .ok ack => .dispatched (.replied ack)
          | .err e => .transportError e) })

/-- R197, R198, R199: of the other opcodes, OP_DEVICE_VENDOR_ID and OP_VENDOR_COMMAND are ignored and every other
one takes the default path; no call, no reply. (R198's scope is the spec's decision D34.) -/
def Obligations.DispatchIgnoresOrDefaults : Prop :=
  ∀ (i d : Nibble) (op : Byte) (ops : List Byte) (s : State), s.fault = none → ops.length ≤ 14 →
    op ≠ 0x00 → op ≠ 0x8C →
    (op = s.cfg.opDeviceVendorId ∨ op = s.cfg.opVendorCommand →
      exec (.dispatch (some (.message i d op ops))) s =
        .next { s with response := some (.dispatched .ignored) }) ∧
    (op ≠ s.cfg.opDeviceVendorId → op ≠ s.cfg.opVendorCommand →
      exec (.dispatch (some (.message i d op ops))) s =
        .next { s with response := some (.dispatched .default) })

/-- R75, R195: the five reasons have the bytes 0x00 to 0x04 in R75's order; exactly these bytes are known, and each is
surfaced with REASON_TEXT of its reason; no text applies to any other byte. The spec's decisions D8 and D17 (the
bytes 1 to 4 are general knowledge, log 14). -/
def Obligations.ReasonBytesNameReasons : Prop :=
  (reasonCode .unrecognizedOpcode = 0x00 ∧ reasonCode .wrongMode = 0x01 ∧
    reasonCode .cannotProvideSource = 0x02 ∧ reasonCode .invalidOperand = 0x03 ∧ reasonCode .refused = 0x04) ∧
  (∀ rb : Byte, reasonKnown rb = true ↔ rb.toNat ≤ 4) ∧
  (∀ (rb : Byte) (r : Reason), reasonOfByte rb = some r ↔ reasonCode r = rb) ∧
  (∀ (cfg : Config) (r : Reason), surfacedReason cfg (reasonCode r) = some (reasonText cfg r)) ∧
  ∀ (cfg : Config) (rb : Byte), 4 < rb.toNat → surfacedReason cfg rb = none

/-- R200: HANDLE_ONE is one receive, then DECODE, then DISPATCH: a receive error is passed on, a frame of length
0 or above 16 raises F_LENGTH_CONTRACT with the Receive event kept, and any other frame goes on exactly as
DISPATCH of its DECODE result does, in the state that holds the Receive event. -/
def Obligations.HandleOneIsReceiveDecodeDispatch : Prop :=
  ∀ (s u : State) (r : Answer (List Byte)), s.fault = none → drawReceive s = .answered r →
    u = { s with
      hist := s.hist ++ [.receive r]
      env := { s.env with receive := s.env.receive.tail, drawn := s.env.drawn + 1 } } →
    (∀ e, r = .err e → exec .handleOne s = .next { u with response := some (.transportError e) }) ∧
    (∀ bytes, r = .ok bytes → bytes.length = 0 ∨ 16 < bytes.length →
      exec .handleOne s = .next { u with fault := some .lengthContract, response := none }) ∧
    (∀ bytes, r = .ok bytes → 1 ≤ bytes.length → bytes.length ≤ 16 →
      ∃ dr, decodeBytes s.cfg bytes = some dr ∧
        exec .handleOne s = exec (.dispatch (some (carried dr))) u)

/-- HANDLE_ONE completes wherever its calls are answered: the Receive event first, then at most one Transmit,
which answers a GIVE_DEVICE_VENDOR_ID (R48, R200, R205); it gives a response, or raises F_LENGTH_CONTRACT or
F_UNREGISTERED and gives none; CTX_SELF_LA and the configuration stay. -/
def Obligations.HandleOneCompletes : Prop :=
  ∀ (s u : State) (r : Answer (List Byte)), s.fault = none → drawReceive s = .answered r →
    u = { s with
      hist := s.hist ++ [.receive r]
      env := { s.env with receive := s.env.receive.tail, drawn := s.env.drawn + 1 } } →
    (∀ req, drawTransmit u req ≠ .never) →
    ∃ (t : State) (replies : List TransportEvent), exec .handleOne s = .next t ∧
      t.hist = s.hist ++ .receive r :: replies ∧
      (replies = [] ∨ ∃ (b0 : Byte) (ops : List Byte) (self : Nibble) (a : Answer Bool),
        r = .ok (b0 :: 0x8C :: ops) ∧ s.ctxSelfLa = some self ∧
        replies = [.transmit { initiator := self, destination := hiNibble b0, opcode := some 0x00,
                               operands := [0x8C, 0x00], retry := 5 } a]) ∧
      ((t.fault = none ∧ t.response.isSome = true) ∨
        (t.fault = some .lengthContract ∧ t.response = none ∧ replies = []) ∨
        (t.fault = some .unregistered ∧ t.response = none ∧ replies = [] ∧ s.ctxSelfLa = none)) ∧
      t.ctxSelfLa = s.ctxSelfLa ∧ t.cfg = s.cfg ∧ t.inbox = s.inbox

/-- R192, R240, R246: routing a decode result never answers with a decode error's status, nor with a builder's:
only OK or TRANSPORT_ERROR. The spec's decision D18. -/
def Obligations.DecodeErrorsStayInsideDispatch : Prop :=
  ∀ (i : Instr) (s t : State) (r : Response), routes s.cfg i = true → exec i s = .next t →
    t.response = some r → statusCode r = 0 ∨ statusCode r = 5

/-! ## Received frames (spec/30_encoding.md R60 to R66; spec/43_dispatch.md) -/

/-- A received polling message takes the default path, with no reply; only its Receive event is left. Rests on
R65, R133, R193, and on the model's reading of a frame row as a received frame (log 9). -/
def Obligations.ReceivedPollIsDefault : Prop :=
  ∀ (i d : Nibble) (s : State), s.fault = none →
    exec (.framePoll i d) s = .next { s with
      hist := s.hist ++ [.receive (.ok [header i d])]
      env := { s.env with drawn := s.env.drawn + 1 }
      response := some (.dispatched .default) }

/-- A received FEATURE_ABORT the decoder accepts is reported as R194 says, with no reply (frame rows: log 9). -/
def Obligations.ReceivedFeatureAbort : Prop :=
  ∀ (i d : Nibble) (ops : List Byte) (s : State), s.fault = none → accepted s.cfg d 0x00 ops.length →
    exec (.frameFeatureAbort i d ops) s = .next { s with
      hist := s.hist ++ [.receive (.ok (header i d :: 0x00 :: ops))]
      env := { s.env with drawn := s.env.drawn + 1 }
      response := some (.dispatched (match ops with
        | [aop, rb] => .featureAbortInfo aop rb (decide (rb.toNat ≤ 4))
        | _ => .featureAbortMalformed)) }

/-- A received GIVE_DEVICE_VENDOR_ID the decoder accepts is answered as R196 says: the Receive event, then the one
Transmit of the reply (R48); unregistered, the codec faults after the Receive event (R249 point 5, the spec's
decision D10) (frame rows: log 9). -/
def Obligations.ReceivedVendorIdRequest : Prop :=
  ∀ (i d : Nibble) (ops : List Byte) (s u : State), s.fault = none → accepted s.cfg d 0x8C ops.length →
    u = { s with
      hist := s.hist ++ [.receive (.ok (header i d :: 0x8C :: ops))]
      env := { s.env with drawn := s.env.drawn + 1 } } →
    (s.ctxSelfLa = none → exec (.frameGiveDeviceVendorId i d ops) s =
      .next { u with fault := some .unregistered, response := none }) ∧
    (∀ (self : Nibble) (req : TxRequest) (r : Answer Bool), s.ctxSelfLa = some self →
      req = { initiator := self, destination := i, opcode := some 0x00, operands := [0x8C, 0x00],
              retry := 5 } →
      drawTransmit u req = .answered r →
      exec (.frameGiveDeviceVendorId i d ops) s = .next { u with
        hist := s.hist ++ [.receive (.ok (header i d :: 0x8C :: ops)), .transmit req r]
        env := { s.env with transmit := s.env.transmit.tail, drawn := s.env.drawn + 2 }
        response := some (match r with
          | .ok ack => .dispatched (.replied ack)
          | .err e => .transportError e) })

/-- Received DEVICE_VENDOR_ID and VENDOR_COMMAND frames the decoder accepts are ignored (R197, R198), unless the
configuration gives them an opcode an earlier arm has (the spec's decision D9; frame rows: log 9). -/
def Obligations.ReceivedVendorFramesIgnored : Prop :=
  ∀ (i d : Nibble) (ops : List Byte) (s : State), s.fault = none →
    (s.cfg.opDeviceVendorId ≠ 0x00 → s.cfg.opDeviceVendorId ≠ 0x8C →
      accepted s.cfg d s.cfg.opDeviceVendorId ops.length →
      exec (.frameDeviceVendorId i d ops) s = .next { s with
        hist := s.hist ++ [.receive (.ok (header i d :: s.cfg.opDeviceVendorId :: ops))]
        env := { s.env with drawn := s.env.drawn + 1 }
        response := some (.dispatched .ignored) }) ∧
    (s.cfg.opVendorCommand ≠ 0x00 → s.cfg.opVendorCommand ≠ 0x8C →
      accepted s.cfg d s.cfg.opVendorCommand ops.length →
      exec (.frameVendorCommand i d ops) s = .next { s with
        hist := s.hist ++ [.receive (.ok (header i d :: s.cfg.opVendorCommand :: ops))]
        env := { s.env with drawn := s.env.drawn + 1 }
        response := some (.dispatched .ignored) })

/-- Every other received message frame the decoder accepts takes the default path: GET_MENU_LANGUAGE,
ACTIVE_SOURCE, GIVE_DEVICE_POWER_STATUS and any other opcode (R199), none of them one that DISPATCH tests for
(frame rows: log 9). -/
def Obligations.ReceivedOtherFramesDefault : Prop :=
  ∀ (i d : Nibble) (op : Byte) (ops : List Byte) (s : State), s.fault = none →
    accepted s.cfg d op ops.length →
    op ≠ 0x00 → op ≠ 0x8C → op ≠ s.cfg.opDeviceVendorId → op ≠ s.cfg.opVendorCommand →
    ∃ t : State, t = { s with
        hist := s.hist ++ [.receive (.ok (header i d :: op :: ops))]
        env := { s.env with drawn := s.env.drawn + 1 }
        response := some (.dispatched .default) } ∧
      exec (.frameMsgOther i d op ops) s = .next t ∧
      (op = 0x91 → exec (.frameGetMenuLanguage i d ops) s = .next t) ∧
      (op = s.cfg.opActiveSource → exec (.frameActiveSource i d ops) s = .next t) ∧
      (op = s.cfg.opGiveDevicePowerStatus → exec (.frameGiveDevicePowerStatus i d ops) s = .next t)

/-- A received message frame that the decoder rejects is dropped with the decoder's reason, whatever its opcode:
no reply, not even to a GIVE_DEVICE_VENDOR_ID (R192, R204; frame rows: log 9). One that is no frame, having more
than 14 operands, raises F_LENGTH_CONTRACT (R131, the spec's decision D10). -/
def Obligations.RejectedFramesAreDropped : Prop :=
  ∀ (ins : Instr) (i d : Nibble) (op : Byte) (ops : List Byte) (s u : State), s.fault = none →
    messageFields s.cfg ins = some (i, d, op, ops) →
    u = { s with
      hist := s.hist ++ [.receive (.ok (header i d :: op :: ops))]
      env := { s.env with drawn := s.env.drawn + 1 } } →
    (ops.length ≤ 14 → ¬ accepted s.cfg d op ops.length →
      ∃ k, exec ins s = .next { u with response := some (.dispatched (.dropped k)) } ∧
        decodeBytes s.cfg (header i d :: op :: ops) = some (.err k)) ∧
    (14 < ops.length → exec ins s = .next { u with fault := some .lengthContract, response := none })

/-- Every frame instruction is exactly HANDLE_ONE with its receive answered by that frame's bytes (R200; log 9):
the frame rows add nothing to the requests. -/
def Obligations.FrameInstructionIsHandleOne : Prop :=
  ∀ (ins : Instr) (s : State) (bytes : List Byte), s.fault = none → encode s.cfg ins = .frame bytes →
    exec ins s = exec .handleOne { s with
      env := { s.env with receive := .answered (.ok bytes) :: s.env.receive } }

/-! ## Faults and reset (spec/60_exceptions.md, spec/70_reset_and_hazards.md) -/

/-- R79: each reserved command code raises F_ILLEGAL_COMMAND, makes no call, gives no response and changes nothing
else. The spec's own decision D5. -/
def Obligations.ReservedCommandsFault : Prop :=
  ∀ s : State, s.fault = none →
    exec .reservedCmd0 s = .next { s with fault := some .illegalCommand, response := none } ∧
    exec .reservedCmdD s = .next { s with fault := some .illegalCommand, response := none } ∧
    exec .reservedCmdE s = .next { s with fault := some .illegalCommand, response := none } ∧
    exec .reservedCmdF s = .next { s with fault := some .illegalCommand, response := none }

/-- R248: while FAULT holds a code every request is refused: no response, no call, no change of state. The spec's
own decision D11; that the refusal is a step which takes the request is the model's form of it (log 6). -/
def Obligations.FaultedCodecRefusesEveryRequest : Prop :=
  ∀ (i : Instr) (s : State) (c : FaultCode), s.fault = some c →
    exec i s = .next { s with response := none }

/-- R22, R248: over any number of steps that take no reset, a faulted codec keeps its code, its address and its
history, and never answers; it never stops either (log 6). The spec's own decision D11. -/
def Obligations.FaultIsStickyAlongRuns : Prop :=
  ∀ (k : Nat) (s : State) (c : FaultCode), s.fault = some c → .reset ∉ s.inbox.take k →
    ∃ t : State, Sys2Proof.core.run k s = .next t ∧ t.fault = some c ∧ t.ctxSelfLa = s.ctxSelfLa ∧
      t.hist = s.hist ∧ t.cfg = s.cfg ∧ t.inbox = s.inbox.drop k ∧
      (t.response = none ∨ t.response = s.response)

/-- R247: a request that leaves FAULT set gives no response, and leaves CTX_SELF_LA as it was. The spec's own
decisions D10 and D11. -/
def Obligations.FaultingRequestGivesNoResponse : Prop :=
  ∀ (i : Instr) (s t : State), exec i s = .next t → t.fault ≠ none →
    t.response = none ∧ t.ctxSelfLa = s.ctxSelfLa

/-- R280: a reset clears FAULT, CTX_SELF_LA and HIST from any state, and changes neither the configuration nor the
transport. The spec's own decision D29; what it leaves of the host's inputs is the model's (log 15). -/
def Obligations.ResetClearsCodecState : Prop :=
  ∀ (s : State) (rest : List Input), s.inbox = .reset :: rest →
    step s = .next { s with fault := none, ctxSelfLa := none, hist := [], response := none, inbox := rest }

/-- R29: after reset FAULT is none, CTX_SELF_LA is none and HIST is empty, for every configuration, and the
invariants of the model hold. (The values are the spec's decisions D11, D12 and D37; that State.reset has the
configuration TC1 is the model's choice, log 1.) -/
def Obligations.ResetValues : Prop :=
  (∀ cfg : Config, (State.resetWith cfg).fault = none ∧ (State.resetWith cfg).ctxSelfLa = none ∧
    (State.resetWith cfg).hist = [] ∧ (State.resetWith cfg).cfg = cfg ∧
    selfIsLastRegistration (State.resetWith cfg) ∧ sentWellFormed (State.resetWith cfg)) ∧
  State.reset = State.resetWith tc1

/-! ## Rules of the whole machine -/

/-- R25, R26, R50: no step changes the configuration, and an instruction writes nothing but FAULT, CTX_SELF_LA, HIST,
the response and the environment's own bookkeeping; only REGISTER writes CTX_SELF_LA. -/
def Obligations.InstructionsWriteOnlyCodecState : Prop :=
  (∀ (i : Instr) (s t : State), exec i s = .next t →
    t.cfg = s.cfg ∧ t.inbox = s.inbox ∧
    ((∀ la, i ≠ .register la) → t.ctxSelfLa = s.ctxSelfLa) ∧
    (isPure i = true → t.ctxSelfLa = s.ctxSelfLa ∧ t.hist = s.hist ∧ t.env = s.env)) ∧
  ∀ s t : State, step s = .next t → t.cfg = s.cfg

/-- R26: two identical CLASSIFY, DESCRIBE, DECODE or BUILD_* requests give identical responses, whatever the steps
between them, as long as FAULT is clear at both. -/
def Obligations.PureRequestsRepeat : Prop :=
  ∀ (k : Nat) (s t : State) (i : Instr), isPure i = true → Sys2Proof.core.run k s = .next t →
    s.fault = none → t.fault = none →
    ∃ s' t' : State, exec i s = .next s' ∧ exec i t = .next t' ∧ s'.response = t'.response ∧
      s'.fault = t'.fault

/-- R24: an instruction only appends to HIST: every event before it stays, in its place. The spec's own decision
D37. -/
def Obligations.HistoryOnlyGrows : Prop :=
  ∀ (i : Instr) (s t : State), exec i s = .next t → ∃ new, t.hist = s.hist ++ new

/-- R204, R205: an instruction makes at most one transmit call. TRANSMIT makes exactly one, with its request,
unless it faults; DISPATCH, HANDLE_ONE and the received frames make one only to answer a decoded
GIVE_DEVICE_VENDOR_ID, after its Receive event if they received it; nothing else transmits. -/
def Obligations.AtMostOneTransmit : Prop :=
  ∀ (i : Instr) (s t : State), exec i s = .next t → ∃ new, t.hist = s.hist ++ new ∧
    (∀ req, i = .transmit (some req) → t.fault = none → ∃ r, new = [.transmit req r]) ∧
    (new.filter isTransmit = [] ∨
      (∃ req r, i = .transmit (some req) ∧ new = [.transmit req r]) ∨
      ∃ (self sender dest : Nibble) (ops : List Byte) (req : TxRequest) (r : Answer Bool),
        s.ctxSelfLa = some self ∧
        req = { initiator := self, destination := sender, opcode := some 0x00, operands := [0x8C, 0x00],
                retry := 5 } ∧
        ((i = .dispatch (some (.message sender dest 0x8C ops)) ∧ new = [.transmit req r]) ∨
          ∃ (bytes : List Byte) (desc : Description), routes s.cfg i = true ∧
            decodeBytes s.cfg bytes = some (.message sender dest 0x8C ops desc) ∧
            new = [.receive (.ok bytes), .transmit req r]))

/-- R23, as an invariant of every step: CTX_SELF_LA is the address of the last registration the transport
accepted since reset, and unwritten if there is none. The spec's own decisions D12 and D32. -/
def Obligations.SelfIsLastRegistrationKept : Prop :=
  ∀ s t : State, selfIsLastRegistration s → step s = .next t → selfIsLastRegistration t

/-- An invariant of every step: whatever the codec has handed to the transport is a well-formed request, so a frame
of 1 to 16 bytes. Rests on R70, R79, R160 and R190. -/
def Obligations.SentRequestsStayWellFormed : Prop :=
  ∀ s t : State, sentWellFormed s → step s = .next t → sentWellFormed t

/-- R24: HIST is observation state: with the environment's draws scripted, no result depends on it. The spec's own
decision D37. -/
def Obligations.ResultsDoNotDependOnHistory : Prop :=
  ∀ (i : Instr) (s : State) (h : List TransportEvent), scripted s.env →
    (∀ r, exec i s = .fault r → exec i { s with hist := h } = .fault r) ∧
    ∀ t, exec i s = .next t → ∃ new, t.hist = s.hist ++ new ∧
      exec i { s with hist := h } = .next { t with hist := h ++ new }

/-- R103: descriptions and texts never steer control flow: with other texts, every instruction but DESCRIBE and
DECODE does exactly the same. -/
def Obligations.TextsNeverSteer : Prop :=
  ∀ (i : Instr) (s : State) (table : List (Byte × DescText)) (sentinel : DescText) (reasons : ReasonTexts),
    describes i = false →
    exec i (withTexts table sentinel reasons s) = onNext (withTexts table sentinel reasons) (exec i s)

/-- R203: DISPATCH and HANDLE_ONE act on a decoded message whatever its destination: two messages that differ in the
destination alone get the same reaction, given to DISPATCH, or as the frame HANDLE_ONE receives, or as a received
frame of any row (frame rows: log 9), where the tables accept both frames. The environment may read HIST, which
holds the frame (R262), so the premise is that it draws the same for the reply after either. The spec's own decision
D19. -/
def Obligations.NoDestinationFilter : Prop :=
  ∀ (i d d' : Nibble) (op : Byte) (ops : List Byte) (s : State),
    exec (.dispatch (some (.message i d op ops))) s = exec (.dispatch (some (.message i d' op ops))) s ∧
    (accepted s.cfg d op ops.length → accepted s.cfg d' op ops.length →
      (∀ v v' : State,
        v = { s with env := { s.env with
          receive := .answered (.ok (header i d :: op :: ops)) :: s.env.receive } } →
        v' = { s with env := { s.env with
          receive := .answered (.ok (header i d' :: op :: ops)) :: s.env.receive } } →
        (∀ req, drawTransmit (afterReceive (.ok (header i d :: op :: ops)) v) req =
          drawTransmit (afterReceive (.ok (header i d' :: op :: ops)) v') req) →
        sameReaction (exec .handleOne v) (exec .handleOne v')) ∧
      ∀ ins ins' : Instr, messageFields s.cfg ins = some (i, d, op, ops) →
        messageFields s.cfg ins' = some (i, d', op, ops) →
        (∀ req, drawTransmit (afterDelivery (header i d :: op :: ops) s) req =
          drawTransmit (afterDelivery (header i d' :: op :: ops) s) req) →
        sameReaction (exec ins s) (exec ins' s))

/-- An instruction answers a next state exactly where it is refused because FAULT is set (R248) or every call it makes
in that state is answered: no ordinary input stops the codec (R246: "none is fatal to the codec"; hang: R264, log
5), and the model refuses nothing. -/
def Obligations.EveryInstructionCompletes : Prop :=
  ∀ (i : Instr) (s : State),
    ((∃ t, exec i s = .next t) ↔ (s.fault = none → callsAnswered i s)) ∧ ∀ r, exec i s ≠ .refused r

/-- A step runs the decoded instruction: where the host's next input decodes to `i`, the step is `exec i` in the
state without that input (R11, R21; the host's inputs in State: log 8). Bytes that are no frame, of length 0 or
above 16, go to HANDLE_ONE's length check (R131, R200, the spec's decision D10; received bytes as an input: log 9),
so they raise F_LENGTH_CONTRACT after their Receive event. With no input the codec idles (log 8). -/
def Obligations.StepRunsDecodedInstruction : Prop :=
  (∀ (s : State) (w : Item) (rest : List Input) (i : Instr), s.inbox = .item w :: rest →
    decodeItem s.cfg w = .ok i → step s = exec i { s with inbox := rest }) ∧
  (∀ (s : State) (bytes : List Byte) (rest : List Input) (e : FrameReject),
    s.inbox = .item (.frame bytes) :: rest → decodeFrame s.cfg bytes = .error e → s.fault = none →
    step s = .next { s with
      inbox := rest
      hist := s.hist ++ [.receive (.ok bytes)]
      env := { s.env with drawn := s.env.drawn + 1 }
      fault := some .lengthContract
      response := none }) ∧
  ∀ s : State, s.inbox = [] → step s = .next s

/-- R72 to R74: the bundle of every response, one equation per form: its numeric status, its disposition code and the
fields that are meaningful. The spec's own decisions D6 and D7. The DecodeResult fields are R71's; R71 gives no value to
the opcode, oplen and operands of a Polling, nor to the operand lanes at and above oplen, and that a response has
nothing there is the model's choice (DESIGN CHOICE, log 16). -/
def Obligations.ResponseBundleCodes : Prop :=
  (∀ p, responseBundle (.classified p) =
    { status := 0, directedAllowed := some p.directedAllowed, broadcastAllowed := some p.broadcastAllowed,
      lengthClass := some p.lengthClass }) ∧
  (∀ desc, responseBundle (.described desc) = { status := 0, description := some desc }) ∧
  responseBundle (.decoded (.err .unsupportedOpcode)) = { status := 1 } ∧
  responseBundle (.decoded (.err .broadcastMismatch)) = { status := 2 } ∧
  responseBundle (.decoded (.err .directedMismatch)) = { status := 3 } ∧
  responseBundle (.decoded (.err .invalidPayloadLength)) = { status := 4 } ∧
  (∀ i d, responseBundle (.decoded (.polling i d)) =
    { status := 0, dres := some { status := 0, kind := 0, initiator := i, destination := d } }) ∧
  (∀ i d op ops desc, responseBundle (.decoded (.message i d op ops desc)) =
    { status := 0, description := some desc,
      dres := some { status := 0, kind := 1, initiator := i, destination := d, opcode := some op,
                     oplen := some (BitVec.ofNat 4 ops.length), operands := ops } }) ∧
  (∀ req, responseBundle (.built req) = { status := 0, txreq := some req }) ∧
  responseBundle .invalidBuildInput = { status := 6 } ∧
  (∀ ack, responseBundle (.transmitted ack) = { status := 0, ack := some ack }) ∧
  responseBundle (.dispatched .default) = { status := 0, disp := some 0 } ∧
  (∀ k, responseBundle (.dispatched (.dropped k)) =
    { status := 0, disp := some 1, dstatus := some (statusCode (.decoded (.err k))) }) ∧
  (∀ a b known, responseBundle (.dispatched (.featureAbortInfo a b known)) =
    { status := 0, disp := some 2, aop := some a, rbyte := some b, reasonKnown := some known }) ∧
  responseBundle (.dispatched .featureAbortMalformed) = { status := 0, disp := some 3 } ∧
  responseBundle (.dispatched .ignored) = { status := 0, disp := some 4 } ∧
  (∀ ack, responseBundle (.dispatched (.replied ack)) = { status := 0, disp := some 5, ack := some ack }) ∧
  responseBundle .registered = { status := 0 } ∧
  (∀ pa, responseBundle (.physAddr pa) = { status := 0, pa := some pa }) ∧
  (∀ e, responseBundle (.transportError e) = { status := 5, terr := some e }) ∧
  ∀ r, statusCode r = (responseBundle r).status
end

