-- ==== Sys2Proof/Laws/Exec.lean ====
section
/-! SUPPORT. Everything an instruction that answers a next state can have done: one inversion lemma over all
instructions, from which the invariants follow without unfolding any meaning again. -/

namespace Sys2Proof.Machine

/-- What routing received or given data can leave of the state `u` it starts from. -/
def Routed (u t : State) : Prop :=
  (∃ d, t = respond (.dispatched d) u) ∨
  (∃ c, t = raiseFault c u) ∨
  (∃ self sender r, u.ctxSelfLa = some self ∧
    t = respond (relay (fun ack => .dispatched (.replied ack)) r)
      (afterTransmit (featureAbortRequest self sender opGiveDeviceVendorId 0x00) r u))

/-- What a request that makes at most its own call can leave of the state `s`. -/
def Served (i : Instr) (s t : State) : Prop :=
  (isPure i = true ∧ ∃ r, t = respond r s) ∨
  (∃ c, t = raiseFault c s) ∨
  (∃ req r, i = .transmit (some req) ∧ req.wellFormed = true ∧
    t = respond (relay .transmitted r) (afterTransmit req r s)) ∨
  (∃ la, i = .register la ∧
    t = respond .registered { afterRegister la (.ok ()) s with ctxSelfLa := some la }) ∨
  (∃ la e, i = .register la ∧ t = respond (.transportError e) (afterRegister la (.err e) s)) ∨
  (∃ r, i = .getPhysAddr ∧ t = respond (relay .physAddr r) (afterPhysAddr r s))

/-- What an instruction that routes a decode result can leave of the state `s`: the Receive event first, where
it receives, then one routing. -/
def RoutedFrom (s t : State) : Prop :=
  Routed s t ∨
  (∃ e, t = respond (.transportError e) (afterReceive (.err e) s)) ∨
  (∃ bytes, Routed (afterReceive (.ok bytes) s) t) ∨
  (∃ bytes, Routed (afterDelivery bytes s) t)

theorem dispatchResult_routed {dr : CarriedResult} {s t : State} (h : dispatchResult dr s = .next t) :
    Routed s t := by
  rcases dispatchResult_next h with h | ⟨_, h⟩ | ⟨i, d, ops, self, r, _, hs, ht⟩
  · exact .inl h
  · exact .inr (.inl ⟨_, h⟩)
  · exact .inr (.inr ⟨self, i, r, hs, ht⟩)

theorem handleReceived_routed {bytes : List Byte} {s t : State} (h : handleReceived bytes s = .next t) :
    Routed s t := by
  rcases handleReceived_next h with ⟨_, h⟩ | ⟨r, _, h⟩
  · exact .inr (.inl ⟨_, h⟩)
  · exact dispatchResult_routed h

/-- A received frame was refused, or it was routed after its Receive event. -/
theorem receiveFrame_next {bytes : List Byte} {s t : State} (h : receiveFrame bytes s = .next t) :
    (∃ c, s.fault = some c ∧ t = noResponse s) ∨ (s.fault = none ∧ Routed (afterDelivery bytes s) t) := by
  rcases serve_next h with h | ⟨hs, h⟩
  · exact .inl h
  · exact .inr ⟨hs, handleReceived_routed h⟩

/-- Every MSG frame instruction is its bytes received. -/
theorem exec_of_messageFields {ins : Instr} {s : State} {i d : Nibble} {op : Byte} {ops : List Byte}
    (h : messageFields s.cfg ins = some (i, d, op, ops)) :
    exec ins s = receiveFrame (header i d :: op :: ops) s := by
  cases ins <;> simp only [messageFields, reduceCtorEq, Option.some.injEq, Prod.mk.injEq] at h <;>
    (obtain ⟨rfl, rfl, rfl, rfl⟩ := h; rfl)

/-- Everything an instruction can do. -/
theorem exec_next {i : Instr} {s t : State} (h : exec i s = .next t) :
    (∃ c, s.fault = some c ∧ t = noResponse s) ∨
    (s.fault = none ∧ (Served i s t ∨ (routes s.cfg i = true ∧ RoutedFrom s t))) := by
  have frame : ∀ {bytes}, receiveFrame bytes s = .next t → routes s.cfg i = true →
      (∃ c, s.fault = some c ∧ t = noResponse s) ∨
      (s.fault = none ∧ (Served i s t ∨ (routes s.cfg i = true ∧ RoutedFrom s t))) := fun h hr =>
    (receiveFrame_next h).imp_right fun ⟨hs, h⟩ => ⟨hs, .inr ⟨hr, .inr (.inr (.inr ⟨_, h⟩))⟩⟩
  have pure : ∀ {body : State → Result}, serve body s = .next t →
      (body s = .next t → Served i s t) →
      (∃ c, s.fault = some c ∧ t = noResponse s) ∨
      (s.fault = none ∧ (Served i s t ∨ (routes s.cfg i = true ∧ RoutedFrom s t))) := fun h k =>
    (serve_next h).imp_right fun ⟨hs, h⟩ => ⟨hs, .inl (k h)⟩
  cases i with
  | classify op =>
    unfold exec execClassify at h
    exact pure h fun h => .inl ⟨rfl, _, by simpa using h.symm⟩
  | describe op =>
    unfold exec execDescribe at h
    exact pure h fun h => .inl ⟨rfl, _, by simpa using h.symm⟩
  | decode flen fbytes =>
    unfold exec execDecode at h
    refine pure h fun h => ?_
    split at h
    · exact .inr (.inl ⟨_, by simpa using h.symm⟩)
    · exact .inl ⟨rfl, _, by simpa using h.symm⟩
  | buildPing i d =>
    unfold exec execBuildPing at h
    exact pure h fun h => .inl ⟨rfl, _, by simpa using h.symm⟩
  | buildSimple i d op =>
    unfold exec execBuildSimple at h
    exact pure h fun h => .inl ⟨rfl, _, by simpa using h.symm⟩
  | buildFeatureAbort i d aop reason =>
    unfold exec execBuildFeatureAbort at h
    refine pure h fun h => .inl ⟨rfl, ?_⟩
    split at h <;> exact ⟨_, by simpa using h.symm⟩
  | buildActiveSource i pa =>
    unfold exec execBuildActiveSource at h
    exact pure h fun h => .inl ⟨rfl, _, by simpa using h.symm⟩
  | transmit req =>
    refine pure h fun h => ?_
    rcases withArgument_next h with ⟨_, h⟩ | ⟨a, ha, h⟩
    · exact .inr (.inl ⟨_, h⟩)
    · obtain ⟨hreq, hwf⟩ := argumentIf_eq_some.mp ha
      obtain ⟨r, _, h⟩ := transmitOnce_next h
      exact .inr (.inr (.inl ⟨a, r, by rw [hreq], hwf, h⟩))
  | dispatch dres =>
    refine (serve_next h).imp_right fun ⟨hs, h⟩ => ⟨hs, ?_⟩
    rcases withArgument_next h with ⟨_, h⟩ | ⟨a, _, h⟩
    · exact .inl (.inr (.inl ⟨_, h⟩))
    · exact .inr ⟨rfl, .inl (dispatchResult_routed h)⟩
  | handleOne =>
    refine (serve_next h).imp_right fun ⟨hs, h⟩ => ⟨hs, .inr ⟨rfl, ?_⟩⟩
    obtain ⟨r, _, h⟩ := onDraw_next h
    cases r with
    | ok bytes => exact .inr (.inr (.inl ⟨_, handleReceived_routed h⟩))
    | err e => exact .inr (.inl ⟨e, by simpa using h.symm⟩)
  | register la =>
    refine pure h fun h => ?_
    obtain ⟨r, _, h⟩ := onDraw_next h
    cases r with
    | ok u => exact .inr (.inr (.inr (.inl ⟨la, rfl, by simpa using h.symm⟩)))
    | err e => exact .inr (.inr (.inr (.inr (.inl ⟨la, e, rfl, by simpa using h.symm⟩))))
  | getPhysAddr =>
    refine pure h fun h => ?_
    obtain ⟨r, _, h⟩ := onDraw_next h
    exact .inr (.inr (.inr (.inr (.inr ⟨r, rfl, by simpa using h.symm⟩))))
  | reservedCmd0 =>
    unfold exec execReservedCmd0 illegalCommand at h
    exact pure h fun h => .inr (.inl ⟨_, by simpa using h.symm⟩)
  | reservedCmdD =>
    unfold exec execReservedCmdD illegalCommand at h
    exact pure h fun h => .inr (.inl ⟨_, by simpa using h.symm⟩)
  | reservedCmdE =>
    unfold exec execReservedCmdE illegalCommand at h
    exact pure h fun h => .inr (.inl ⟨_, by simpa using h.symm⟩)
  | reservedCmdF =>
    unfold exec execReservedCmdF illegalCommand at h
    exact pure h fun h => .inr (.inl ⟨_, by simpa using h.symm⟩)
  | framePoll i d => exact frame h rfl
  | frameFeatureAbort i d ops => exact frame h rfl
  | frameGiveDeviceVendorId i d ops => exact frame h rfl
  | frameGetMenuLanguage i d ops => exact frame h rfl
  | frameActiveSource i d ops => exact frame h rfl
  | frameDeviceVendorId i d ops => exact frame h rfl
  | frameVendorCommand i d ops => exact frame h rfl
  | frameGiveDevicePowerStatus i d ops => exact frame h rfl
  | frameMsgOther i d op ops => exact frame h rfl

end Sys2Proof.Machine
end

