-- ==== Sys2Proof/Tests/Slice0.lean ====
section
/-! SUPPORT. Tests of the model. The expected values come from spec/95_test_vectors.md (the vector is named in each
docstring) or are worked out by hand from the rules. A test on fixed values checks this model; it is no claim. Also a
witness for the hypotheses of every statement that has some. -/

namespace Sys2Proof.Tests

open Sys2Proof.Machine

/-! ## A small state to test on -/

/-- An environment that scripts one answer of each kind. -/
def answers (recv : Draw (List Byte)) (sent : Draw Bool) : Env :=
  { register := [.answered (.ok ())], physAddr := [.answered (.ok 0x1200)], transmit := [sent],
    receive := [recv], drawn := 0 }

/-- A registered codec under TC1 whose calls are all accepted. -/
def ready : State :=
  { State.reset with ctxSelfLa := some 4, env := answers (.answered (.ok [0x04, 0x8C])) (.answered (.ok true)) }

/-- The same, not yet registered. -/
def fresh : State := { ready with ctxSelfLa := none }

/-- The same, its calls answered with the given error. -/
def failing (e : TransportErr) : State :=
  { ready with env := { register := [.answered (.err e)], physAddr := [.answered (.err e)],
                        transmit := [.answered (.err e)], receive := [.answered (.err e)], drawn := 0 } }

/-- The same, no call ever answered. -/
def stuck : State :=
  { ready with env := { register := [.never], physAddr := [.never], transmit := [.never],
                        receive := [.never], drawn := 0 } }

/-- The response of a result that is a next state. -/
def responseOf : Result → Option Response
  | .next t => t.response
  | .fault _ => none
  | .refused _ => none

/-- FAULT after a result that is a next state. -/
def faultOf : Result → Option FaultCode
  | .next t => t.fault
  | .fault _ => none
  | .refused _ => none

/-- The events a result left in HIST. -/
def histOf : Result → List TransportEvent
  | .next t => t.hist
  | .fault _ => []
  | .refused _ => []

/-- CTX_SELF_LA after a result that is a next state. -/
def selfOf : Result → Option Nibble
  | .next t => t.ctxSelfLa
  | .fault _ => none
  | .refused _ => none

/-- A DECODE request for these bytes. -/
def decodeRequestOf (bytes : List Byte) : Instr :=
  .decode (BitVec.ofNat 5 bytes.length) (padTo 16 bytes)

/-- The reply of R196 from 4 to `dest`. -/
def reply (dest : Nibble) : TxRequest :=
  { initiator := 4, destination := dest, opcode := some 0x00, operands := [0x8C, 0x00], retry := 5 }

/-- A list of n zero bytes. -/
def zeros (n : Nat) : List Byte := List.replicate n 0

/-! ## Well-formedness: an ill-formed term for each check -/

/-- 15 operands are one too many (R64, R70). -/
theorem test_wf_tx_too_long : (Instr.transmit (some { reply 0 with operands := zeros 15 })).wellFormed tc1 = false := by
  decide
/-- Operands without an opcode (R70). -/
theorem test_wf_tx_no_opcode :
    (Instr.transmit (some { reply 0 with opcode := none })).wellFormed tc1 = false := by decide
/-- A result with 15 operands (R71). -/
theorem test_wf_dres_too_long :
    (Instr.dispatch (some (.message 0 4 0x89 (zeros 15)))).wellFormed tc1 = false := by decide
/-- Each frame row with 15 operands (R64). -/
theorem test_wf_frames_too_long :
    ((Instr.frameFeatureAbort 0 4 (zeros 15)).wellFormed tc1 ||
      (Instr.frameGiveDeviceVendorId 0 4 (zeros 15)).wellFormed tc1 ||
      (Instr.frameGetMenuLanguage 0 4 (zeros 15)).wellFormed tc1 ||
      (Instr.frameActiveSource 0 4 (zeros 15)).wellFormed tc1 ||
      (Instr.frameDeviceVendorId 0 4 (zeros 15)).wellFormed tc1 ||
      (Instr.frameVendorCommand 0 4 (zeros 15)).wellFormed tc1 ||
      (Instr.frameGiveDevicePowerStatus 0 4 (zeros 15)).wellFormed tc1 ||
      (Instr.frameMsgOther 0 4 0x36 (zeros 15)).wellFormed tc1) = false := by decide
/-- FRAME_MSG_OTHER carries no opcode another row has. -/
theorem test_wf_other_named :
    ([0x00, 0x8C, 0x91, 0x82, 0x87, 0x89, 0x8F].any fun op =>
      (Instr.frameMsgOther 0 4 op []).wellFormed tc1) = false := by decide
/-- A row whose opcode an earlier row has is ill formed (log 10). -/
theorem test_wf_collisions :
    (Instr.frameDeviceVendorId 0 4 []).wellFormed { tc1 with opDeviceVendorId := 0x8C } = false ∧
    (Instr.frameVendorCommand 0 4 []).wellFormed { tc1 with opVendorCommand := 0x87 } = false ∧
    (Instr.frameGetMenuLanguage 0 4 []).wellFormed { tc1 with opVendorCommand := 0x91 } = false ∧
    (Instr.frameActiveSource 0 4 []).wellFormed { tc1 with opActiveSource := 0x91 } = false ∧
    (Instr.frameGiveDevicePowerStatus 0 4 []).wellFormed { tc1 with opGiveDevicePowerStatus := 0x82 } = false := by
  decide

/-! ## Decoding: bundles and bytes written out from the spec's encodings (R60, R61, R68 to R71) -/

theorem test_decode_classify : decodeRequest { cmd := 0x1, op := 0x8C } = .classify 0x8C := by decide
theorem test_decode_describe : decodeRequest { cmd := 0x2, op := 0x91 } = .describe 0x91 := by decide
/-- P2 line 4. -/
theorem test_decode_decode :
    decodeRequest { cmd := 0x3, flen := 4,
                    fbytes := #v[0x3F, 0x82, 0x12, 0x00, 0, 0, 0, 0, 0, 0, 0, 0, 0, 0, 0, 0] } =
      .decode 4 (padTo 16 [0x3F, 0x82, 0x12, 0x00]) := by decide
/-- P5 line 1. -/
theorem test_decode_build_ping : decodeRequest { cmd := 0x4, init := 0x4, dest := 0x4 } = .buildPing 4 4 := by decide
theorem test_decode_build_simple :
    decodeRequest { cmd := 0x5, init := 0x4, dest := 0x0, op := 0x8F } = .buildSimple 4 0 0x8F := by decide
/-- P4 line 3. -/
theorem test_decode_build_feature_abort :
    decodeRequest { cmd := 0x6, init := 0x4, dest := 0x0, aop := 0x91, reason := 0x09 } =
      .buildFeatureAbort 4 0 0x91 9 := by decide
/-- P2 line 2, with V-B16's unused `dest`. -/
theorem test_decode_build_active_source :
    decodeRequest { cmd := 0x7, init := 0x3, pa := 0x1200, dest := 5 } = .buildActiveSource 3 0x1200 := by decide
/-- P2 line 3. -/
theorem test_decode_transmit :
    decodeRequest
      { cmd := 0x8, txreq := { initiator := 3, destination := 0xF, hasOpcode := 1, opcode := 0x82, oplen := 2,
                               operands := #v[0x12, 0x00, 0, 0, 0, 0, 0, 0, 0, 0, 0, 0, 0, 0], retry := 5 } } =
      .transmit (some { initiator := 3, destination := 15, opcode := some 0x82, operands := [0x12, 0x00],
                        retry := 5 }) := by decide
/-- V-T5, V-T6: malformed txreq bundles; oplen 14 is well formed. -/
theorem test_decode_transmit_malformed :
    decodeRequest { cmd := 0x8, txreq := { hasOpcode := 1, oplen := 15 } } = .transmit none ∧
    decodeRequest { cmd := 0x8, txreq := { hasOpcode := 0, oplen := 2 } } = .transmit none ∧
    (decodeTxBundle { hasOpcode := 1, oplen := 14 }).isSome = true := by decide
/-- P2 line 5. -/
theorem test_decode_dispatch :
    decodeRequest
      { cmd := 0x9, dres := { status := 0, kind := 1, initiator := 3, destination := 0xF, opcode := 0x82, oplen := 2,
                              operands := #v[0x12, 0x00, 0, 0, 0, 0, 0, 0, 0, 0, 0, 0, 0, 0] } } =
      .dispatch (some (.message 3 15 0x82 [0x12, 0x00])) := by decide
/-- V-P16 to V-P19. -/
theorem test_decode_dispatch_forms :
    decodeRequest { cmd := 0x9, dres := { status := 0, kind := 0, destination := 3 } } =
      .dispatch (some (.polling 0 3)) ∧
    decodeRequest { cmd := 0x9, dres := { status := 4, kind := 1, oplen := 15 } } =
      .dispatch (some (.err .invalidPayloadLength)) ∧
    decodeRequest { cmd := 0x9, dres := { status := 5 } } = .dispatch none ∧
    decodeRequest { cmd := 0x9, dres := { status := 0, kind := 1, oplen := 15 } } = .dispatch none := by decide
theorem test_decode_handle_one : decodeRequest { cmd := 0xA } = .handleOne := by decide
theorem test_decode_register : decodeRequest { cmd := 0xB, la := 0x4 } = .register 4 := by decide
theorem test_decode_get_phys_addr : decodeRequest { cmd := 0xC } = .getPhysAddr := by decide
theorem test_decode_reserved :
    decodeRequest { cmd := 0x0 } = .reservedCmd0 ∧ decodeRequest { cmd := 0xD } = .reservedCmdD ∧
    decodeRequest { cmd := 0xE } = .reservedCmdE ∧ decodeRequest { cmd := 0xF } = .reservedCmdF := by decide
theorem test_decode_frame_poll : decodeFrame tc1 [0x03] = .ok (.framePoll 0 3) := rfl
theorem test_decode_frame_feature_abort :
    decodeFrame tc1 [0x03, 0x00, 0x8C, 0x00] = .ok (.frameFeatureAbort 0 3 [0x8C, 0x00]) := rfl
theorem test_decode_frame_give_device_vendor_id :
    decodeFrame tc1 [0x04, 0x8C] = .ok (.frameGiveDeviceVendorId 0 4 []) := rfl
theorem test_decode_frame_get_menu_language :
    decodeFrame tc1 [0x03, 0x91, 0x11, 0x22] = .ok (.frameGetMenuLanguage 0 3 [0x11, 0x22]) := rfl
theorem test_decode_frame_active_source :
    decodeFrame tc1 [0x3F, 0x82, 0x12, 0x00] = .ok (.frameActiveSource 3 15 [0x12, 0x00]) := rfl
theorem test_decode_frame_device_vendor_id :
    decodeFrame tc1 [0x5F, 0x87, 0x00, 0x10, 0x20] = .ok (.frameDeviceVendorId 5 15 [0x00, 0x10, 0x20]) := rfl
theorem test_decode_frame_vendor_command :
    decodeFrame tc1 [0x04, 0x89, 0x01] = .ok (.frameVendorCommand 0 4 [0x01]) := rfl
theorem test_decode_frame_give_device_power_status :
    decodeFrame tc1 [0xF0, 0x8F] = .ok (.frameGiveDevicePowerStatus 15 0 []) := rfl
theorem test_decode_frame_other : decodeFrame tc1 [0x05, 0x36, 0x00] = .ok (.frameMsgOther 0 5 0x36 [0x00]) := rfl
/-- R60's bounds: 16 bytes are a frame, 0 and 17 are none. -/
theorem test_decode_frame_bounds :
    decodeFrame tc1 (zeros 16) = .ok (.frameFeatureAbort 0 0 (zeros 14)) ∧
    decodeFrame tc1 [] = .error .empty ∧ decodeFrame tc1 (zeros 17) = .error .tooLong := ⟨rfl, rfl, rfl⟩

/-! ## The opcode table's words -/

/-- The match words of spec/opcode_table.json's rows. -/
theorem test_table_words :
    decodeTableWord 8 0xA = some .handleOne ∧ decodeTableWord 8 0xF = some .reservedCmdF ∧
    decodeTableWord 8 0x0 = some .reservedCmd0 ∧ decodeTableWord 0 0 = some (.framePoll 0 0) ∧
    decodeTableWord 16 0x00 = some (.frameFeatureAbort 0 0 []) ∧
    decodeTableWord 16 0x8C = some (.frameGiveDeviceVendorId 0 0 []) ∧
    decodeTableWord 16 0x91 = some (.frameGetMenuLanguage 0 0 []) ∧
    decodeTableWord 16 0x82 = some (.frameActiveSource 0 0 []) ∧
    decodeTableWord 16 0x8F = some (.frameGiveDevicePowerStatus 0 0 []) ∧
    decodeTableWord 8 0x87 = some (.frameDeviceVendorId 0 0 []) ∧
    decodeTableWord 8 0x89 = some (.frameVendorCommand 0 0 []) := by decide
/-- One step runs the placed word as the first instruction after reset. -/
theorem test_fetch_word :
    responseOf (step (State.reset.withFetchWord 8 0x4)) =
      some (.built { initiator := 0, destination := 0, opcode := none, operands := [], retry := 5 }) ∧
    responseOf (step (State.reset.withFetchWord 8 0xC)) = some (.physAddr 0) := by decide

/-! ## Tables -/

/-- R116: TC1 satisfies R106 to R111, and has R114's text. -/
theorem test_tc1_conforming : conforming tc1 = true := by decide +kernel
/-- V-C6, V-C9: a listed opcode and R104's default. -/
theorem test_classify :
    responseOf (exec (.classify 0x8C) ready) = some (.classified ⟨true, false, 0⟩) ∧
    responseOf (exec (.classify 0x01) ready) = some (.classified ⟨false, false, 0⟩) := by decide
/-- V-C3 to V-C5. -/
theorem test_classify_rows :
    classify tc1 0x82 = ⟨false, true, 1⟩ ∧ classify tc1 0x87 = ⟨false, true, 2⟩ ∧
    classify tc1 0x89 = ⟨true, false, 3⟩ := by decide
/-- V-C12. -/
theorem test_describe :
    responseOf (exec (.describe 0x91) ready) = some (.described (.known "Get Menu Language")) := rfl
/-- V-C13. -/
theorem test_describe_unsupported :
    responseOf (exec (.describe 0x01) ready) = some (.described .unsupported) ∧
    shownDescription tc1 .unsupported = "*Unsupported Opcode*" := ⟨rfl, rfl⟩

/-! ## DECODE -/

/-- V-D1, V-D2. -/
theorem test_decode_polls :
    responseOf (exec (decodeRequestOf [0x03]) ready) = some (.decoded (.polling 0 3)) ∧
    responseOf (exec (decodeRequestOf [0xFF]) ready) = some (.decoded (.polling 15 15)) := ⟨rfl, rfl⟩
/-- V-D4. -/
theorem test_decode_message :
    responseOf (exec (decodeRequestOf [0x03, 0x00, 0x8C, 0x00]) ready) =
      some (.decoded (.message 0 3 0x00 [0x8C, 0x00] (.known "Feature Abort"))) := rfl
/-- V-D5, V-D7, V-D9, V-D17 to V-D20, V-D29: each rejection, and which check comes first. -/
theorem test_decode_rejections :
    decodeBytes tc1 [0x03, 0x00] = some (.err .invalidPayloadLength) ∧
    decodeBytes tc1 [0x03, 0x00, 0x8C, 0x00, 0x00] = some (.err .invalidPayloadLength) ∧
    decodeBytes tc1 [0x0F, 0x8C] = some (.err .broadcastMismatch) ∧
    decodeBytes tc1 [0x03, 0x82] = some (.err .directedMismatch) ∧
    decodeBytes tc1 [0x40, 0x01] = some (.err .unsupportedOpcode) ∧
    decodeBytes tc1 ([0x4F, 0x01] ++ zeros 14) = some (.err .unsupportedOpcode) ∧
    decodeBytes tc1 ([0x0F, 0x8C] ++ zeros 14) = some (.err .broadcastMismatch) ∧
    decodeBytes tc1 [0x50, 0x87, 0x00, 0x10, 0x20] = some (.err .directedMismatch) :=
  ⟨rfl, rfl, rfl, rfl, rfl, rfl, rfl, rfl⟩
/-- V-D25, V-D26, V-D28, V-D31, V-D32. -/
theorem test_decode_accepts :
    decodeBytes tc1 [0x04, 0x89] = some (.message 0 4 0x89 [] (.known "Vendor Command")) ∧
    decodeBytes tc1 ([0x04, 0x89] ++ zeros 14) = some (.message 0 4 0x89 (zeros 14) (.known "Vendor Command")) ∧
    decodeBytes tc1 [0x5F, 0x87, 0x00, 0x10, 0x20] =
      some (.message 5 15 0x87 [0x00, 0x10, 0x20] (.known "Device Vendor ID")) ∧
    decodeBytes tc1 [0xF0, 0x8F] = some (.message 15 0 0x8F [] (.known "Give Device Power Status")) ∧
    decodeBytes tc1 [0x44, 0x8F] = some (.message 4 4 0x8F [] (.known "Give Device Power Status")) :=
  ⟨rfl, rfl, rfl, rfl, rfl⟩
/-- V-D33, V-D34. -/
theorem test_decode_length_contract :
    faultOf (exec (.decode 0 (padTo 16 [])) ready) = some .lengthContract ∧
    faultOf (exec (.decode 17 (padTo 16 [])) ready) = some .lengthContract := by decide

/-! ## Builders -/

/-- V-B1, V-B4, V-B8, V-B13, V-B14: the wire images. -/
theorem test_build_images :
    wireImage (pingRequest 0 3) = [0x03] ∧ wireImage (simpleRequest 4 0 0x8F) = [0x40, 0x8F] ∧
    wireImage (featureAbortRequest 4 0 0x8C 0) = [0x40, 0x00, 0x8C, 0x00] ∧
    wireImage (activeSourceRequest tc1 3 0x1200) = [0x3F, 0x82, 0x12, 0x00] ∧
    wireImage (activeSourceRequest tc1 4 0xFFFF) = [0x4F, 0x82, 0xFF, 0xFF] := by decide
/-- V-B9, V-B10. -/
theorem test_build_feature_abort :
    responseOf (exec (.buildFeatureAbort 1 2 0x91 4) ready) = some (.built
      { initiator := 1, destination := 2, opcode := some 0x00, operands := [0x91, 0x04], retry := 5 }) ∧
    responseOf (exec (.buildFeatureAbort 1 2 0x91 5) ready) = some .invalidBuildInput := by decide
/-- V-B15. -/
theorem test_build_active_source :
    responseOf (exec (.buildActiveSource 15 0x0000) ready) = some (.built
      { initiator := 15, destination := 15, opcode := some 0x82, operands := [0x00, 0x00], retry := 5 }) := by decide
/-- V-B6. -/
theorem test_build_simple :
    responseOf (exec (.buildSimple 1 0 0x01) ready) = some (.built
      { initiator := 1, destination := 0, opcode := some 0x01, operands := [], retry := 5 }) := by decide

/-! ## TRANSMIT, REGISTER, GET_PHYS_ADDR -/

/-- V-T1, V-T3. -/
theorem test_transmit :
    responseOf (exec (.transmit (some (reply 0))) ready) = some (.transmitted true) ∧
    histOf (exec (.transmit (some (reply 0))) (failing ⟨7⟩)) = [.transmit (reply 0) (.err ⟨7⟩)] ∧
    responseOf (exec (.transmit (some (reply 0))) (failing ⟨7⟩)) = some (.transportError ⟨7⟩) := by decide
/-- V-T4, V-T5. -/
theorem test_transmit_forms :
    responseOf (exec (.transmit (some { pingRequest 0 3 with retry := 0 })) ready) = some (.transmitted true) ∧
    faultOf (exec (.transmit none) ready) = some .illegalArgument := by decide
/-- V-H7, V-H8, V-H9. -/
theorem test_register :
    selfOf (exec (.register 4) fresh) = some 4 ∧ selfOf (exec (.register 7) ready) = some 7 ∧
    selfOf (exec (.register 7) (failing ⟨1⟩)) = some 4 ∧
    histOf (exec (.register 7) (failing ⟨1⟩)) = [.register 7 (.err ⟨1⟩)] := by decide
/-- V-H10, V-H11. -/
theorem test_get_phys_addr :
    responseOf (exec .getPhysAddr ready) = some (.physAddr 0x1200) ∧
    responseOf (exec .getPhysAddr (failing ⟨1⟩)) = some (.transportError ⟨1⟩) := by decide

/-! ## DISPATCH -/

/-- V-P1, V-P3, V-P4, V-P5. -/
theorem test_dispatch_feature_abort :
    responseOf (exec (.dispatch (some (.message 0 3 0x00 [0x8C, 0x00]))) fresh) =
      some (.dispatched (.featureAbortInfo 0x8C 0x00 true)) ∧
    responseOf (exec (.dispatch (some (.message 0 3 0x00 [0x36, 0x07]))) fresh) =
      some (.dispatched (.featureAbortInfo 0x36 0x07 false)) ∧
    responseOf (exec (.dispatch (some (.message 0 3 0x00 [0x8C]))) fresh) =
      some (.dispatched .featureAbortMalformed) ∧
    responseOf (exec (.dispatch (some (.message 0 3 0x00 []))) fresh) =
      some (.dispatched .featureAbortMalformed) := by decide
/-- V-P6, V-P9, V-P10. -/
theorem test_dispatch_vendor_id :
    histOf (exec (.dispatch (some (.message 0 4 0x8C []))) ready) = [.transmit (reply 0) (.ok true)] ∧
    faultOf (exec (.dispatch (some (.message 0 4 0x8C []))) fresh) = some .unregistered ∧
    histOf (exec (.dispatch (some (.message 2 7 0x8C []))) ready) = [.transmit (reply 2) (.ok true)] ∧
    wireImage (reply 2) = [0x42, 0x00, 0x8C, 0x00] := by decide
/-- V-P12, V-P13, V-P15, V-P16, V-P17. -/
theorem test_dispatch_others :
    responseOf (exec (.dispatch (some (.message 5 15 0x87 [0x00, 0x10, 0x20]))) fresh) =
      some (.dispatched .ignored) ∧
    responseOf (exec (.dispatch (some (.message 0 4 0x89 [0x01]))) fresh) = some (.dispatched .ignored) ∧
    responseOf (exec (.dispatch (some (.message 0 4 0xA0 [0x00]))) fresh) = some (.dispatched .default) ∧
    responseOf (exec (.dispatch (some (.polling 0 3))) fresh) = some (.dispatched .default) ∧
    responseOf (exec (.dispatch (some (.err .directedMismatch))) fresh) =
      some (.dispatched (.dropped .directedMismatch)) := by decide

/-! ## HANDLE_ONE and received frames -/

/-- V-H1, V-H2. -/
theorem test_handle_one :
    histOf (exec .handleOne ready) = [.receive (.ok [0x04, 0x8C]), .transmit (reply 0) (.ok true)] ∧
    faultOf (exec .handleOne fresh) = some .unregistered ∧
    histOf (exec .handleOne fresh) = [.receive (.ok [0x04, 0x8C])] := by decide
/-- V-H3 to V-H6. -/
theorem test_handle_one_corners :
    faultOf (exec .handleOne { ready with env := answers (.answered (.ok [])) .never }) = some .lengthContract ∧
    faultOf (exec .handleOne { ready with env := answers (.answered (.ok (zeros 17))) .never }) =
      some .lengthContract ∧
    responseOf (exec .handleOne (failing ⟨2⟩)) = some (.transportError ⟨2⟩) ∧
    responseOf (exec .handleOne { ready with env := answers (.answered (.ok [0x0F, 0x8C])) .never }) =
      some (.dispatched (.dropped .broadcastMismatch)) := by decide
/-- P3 lines 2, 4 and 5, as received frames. -/
theorem test_frames :
    responseOf (exec (.framePoll 0 3) ready) = some (.dispatched .default) ∧
    responseOf (exec (.frameFeatureAbort 0 3 [0x8C, 0x00]) ready) =
      some (.dispatched (.featureAbortInfo 0x8C 0x00 true)) ∧
    responseOf (exec (.frameDeviceVendorId 1 4 [0x00, 0x10, 0x20]) ready) =
      some (.dispatched (.dropped .directedMismatch)) ∧
    responseOf (exec (.frameDeviceVendorId 1 15 [0x00, 0x10, 0x20]) ready) = some (.dispatched .ignored) := by decide
/-- Received frames of the other rows, by R196 to R199 under TC1. -/
theorem test_frames_others :
    responseOf (exec (.frameGiveDeviceVendorId 0 4 []) ready) = some (.dispatched (.replied true)) ∧
    responseOf (exec (.frameVendorCommand 0 4 [0x01]) ready) = some (.dispatched .ignored) ∧
    responseOf (exec (.frameGetMenuLanguage 0 4 []) ready) = some (.dispatched .default) ∧
    responseOf (exec (.frameActiveSource 3 15 [0x12, 0x00]) ready) = some (.dispatched .default) ∧
    responseOf (exec (.frameGiveDevicePowerStatus 0 4 []) ready) = some (.dispatched .default) ∧
    responseOf (exec (.frameMsgOther 0 5 0x36 []) ready) = some (.dispatched .default) := by decide

/-! ## Faults and reset -/

/-- V-F1, V-F2, and the other two reserved codes. -/
theorem test_reserved :
    faultOf (exec .reservedCmd0 ready) = some .illegalCommand ∧
    faultOf (exec .reservedCmdD ready) = some .illegalCommand ∧
    faultOf (exec .reservedCmdE ready) = some .illegalCommand ∧
    faultOf (exec .reservedCmdF ready) = some .illegalCommand := by decide
/-- V-F3 to V-F5: a faulted codec refuses, and the first code stays. -/
theorem test_sticky :
    responseOf (exec (.classify 0x00) { ready with fault := some .lengthContract }) = none ∧
    histOf (exec .handleOne { ready with fault := some .unregistered }) = [] ∧
    faultOf (exec .reservedCmdD { ready with fault := some .illegalCommand }) = some .illegalCommand ∧
    faultOf (exec .reservedCmdD { ready with fault := some .unregistered }) = some .unregistered := by decide
/-- V-F6. -/
theorem test_reset :
    step { ready with fault := some .unregistered, hist := [.receive (.ok [])], inbox := [.reset] } =
      .next { ready with ctxSelfLa := none } := rfl

/-! ## Witnesses: states and operands that meet each statement's hypotheses -/

theorem witness_FrameFormatsByLength :
    (∃ i, decodeFrame tc1 [0x03] = .ok i) ∧ (∃ i, decodeFrame tc1 [0x03, 0x36] = .ok i) ∧
    ∃ i, decodeFrame tc1 (zeros 16) = .ok i := ⟨⟨_, rfl⟩, ⟨_, rfl⟩, ⟨_, rfl⟩⟩

/-- Well-formed terms of the forms that have a check, with 14 operands where they carry some. -/
theorem witness_DecodeEncodeRoundTrip :
    (Instr.transmit (some { reply 0 with operands := zeros 14 })).wellFormed tc1 = true ∧
    (Instr.dispatch (some (.message 0 4 0x89 (zeros 14)))).wellFormed tc1 = true ∧
    (Instr.frameFeatureAbort 0 4 (zeros 14)).wellFormed tc1 = true ∧
    (Instr.frameGiveDeviceVendorId 0 4 (zeros 14)).wellFormed tc1 = true ∧
    (Instr.frameGetMenuLanguage 0 4 (zeros 14)).wellFormed tc1 = true ∧
    (Instr.frameActiveSource 0 15 (zeros 14)).wellFormed tc1 = true ∧
    (Instr.frameDeviceVendorId 0 15 (zeros 14)).wellFormed tc1 = true ∧
    (Instr.frameVendorCommand 0 4 (zeros 14)).wellFormed tc1 = true ∧
    (Instr.frameGiveDevicePowerStatus 0 4 (zeros 14)).wellFormed tc1 = true ∧
    (Instr.frameMsgOther 0 4 0xFF (zeros 14)).wellFormed tc1 = true := by decide

theorem witness_FrameEncodeDecode : decodeFrame tc1 [0x05, 0x36] = .ok (.frameMsgOther 0 5 0x36 []) := rfl

/-- Bundles that differ in fields BUILD_ACTIVE_SOURCE, TRANSMIT and DISPATCH do not use. -/
theorem witness_UnusedFieldsHaveNoEffect :
    sameUsedFields { cmd := 0x7, init := 2, pa := 0xABCD } { cmd := 0x7, init := 2, pa := 0xABCD, dest := 5 } ∧
    sameUsedFields { cmd := 0x8, txreq := { oplen := 0, opcode := 1 } }
      { cmd := 0x8, txreq := { oplen := 0, opcode := 2 } } ∧
    sameUsedFields { cmd := 0x9, dres := { status := 1, opcode := 1 } }
      { cmd := 0x9, dres := { status := 1, opcode := 2 } } ∧
    sameUsedFields { cmd := 0x3, flen := 1, fbytes := padTo 16 [3, 1] }
      { cmd := 0x3, flen := 1, fbytes := padTo 16 [3, 2] } := by
  simp [sameUsedFields, sameTxFields, sameDresFields]
  decide

theorem witness_MalformedBundlesExactly :
    (∃ req, decodeTxBundle { hasOpcode := 1, oplen := 14 } = some req) ∧
    ∃ r, decodeDresBundle { status := 0, kind := 1, oplen := 14 } = some r := ⟨⟨_, rfl⟩, ⟨_, rfl⟩⟩

theorem witness_WireImageIsAFrame :
    ({ reply 0 with operands := zeros 14 } : TxRequest).wellFormed = true ∧
    (pingRequest 0 3).wellFormed = true ∧ isPure (.buildPing 0 3) = true ∧
    ∃ t, exec (.buildPing 0 3) ready = .next t ∧ t.response = some (.built (pingRequest 0 3)) :=
  ⟨by decide, by decide, rfl, ⟨_, rfl, rfl⟩⟩

theorem witness_ClassifyReturnsTableRow :
    ready.fault = none ∧ (0x8C, ⟨true, false, 0⟩) ∈ ready.cfg.opcodeTable ∧
    ∀ q, (0x8C, q) ∈ ready.cfg.opcodeTable → q = ⟨true, false, 0⟩ :=
  ⟨rfl, by decide, by simp [ready, State.reset, State.resetWith, tc1, tc1OpcodeTable]⟩

theorem witness_UnlistedOpcodeIsUnsupported :
    ready.fault = none ∧ (∀ e ∈ ready.cfg.opcodeTable, e.1 ≠ 0x01) ∧ (zeros 14).length ≤ 14 := by decide

theorem witness_DescribeReadsDescriptionTableAlone :
    ready.fault = none ∧ (0x8C, "Give Device Vendor ID") ∈ ready.cfg.descriptionTable ∧
    (∀ t, (0x8C, t) ∈ ready.cfg.descriptionTable → t = "Give Device Vendor ID") ∧
    ∀ e ∈ ready.cfg.descriptionTable, e.1 ≠ 0x01 :=
  ⟨rfl, by simp [ready, State.reset, State.resetWith, tc1, tc1DescriptionTable],
    by simp [ready, State.reset, State.resetWith, tc1, tc1DescriptionTable], by decide⟩

/-- The lengths on both sides of the contract's bounds (also for DecodeChecksInOrder's 2 and 16). -/
theorem witness_DecodeLengthContract :
    ready.fault = none ∧ (0 : FrameLen).toNat = 0 ∧ 16 < (17 : FrameLen).toNat ∧ 16 < (31 : FrameLen).toNat ∧
    (2 ≤ (2 : FrameLen).toNat ∧ (2 : FrameLen).toNat ≤ 16) ∧
    2 ≤ (16 : FrameLen).toNat ∧ (16 : FrameLen).toNat ≤ 16 := by decide

theorem witness_DecodeChecksInOrder :
    ready.fault = none ∧ 2 ≤ (16 : FrameLen).toNat ∧ (16 : FrameLen).toNat ≤ 16 := by decide

/-- The hypothesis of the statements on DECODE, the builders, the reserved codes and the poll frame. -/
theorem witness_healthy : ready.fault = none ∧ fresh.fault = none := by decide

theorem witness_DecodeIsPure : ready.fault = none ∧ fresh.fault = none ∧ ready.cfg = fresh.cfg := ⟨rfl, rfl, rfl⟩

/-- Each law's premises at a boundary: 14 operands, 0xF and 0xE as the destination. -/
theorem witness_DecoderLaws :
    (zeros 14).length ≤ 14 ∧ recognized (classify tc1 0x01) = false ∧
    (recognized (classify tc1 0x8C) = true ∧ (classify tc1 0x8C).broadcastAllowed = false) ∧
    (recognized (classify tc1 0x82) = true ∧ (0xE : Nibble) ≠ 0xF ∧ (classify tc1 0x82).directedAllowed = false) ∧
    (classify tc1 0x36).broadcastAllowed = true ∧ (classify tc1 0x36).directedAllowed = true := by decide

theorem witness_BuildFeatureAbortChecksReason :
    ready.fault = none ∧ (4 : Byte).toNat ≤ 4 ∧ 4 < (5 : Byte).toNat := by decide

theorem witness_BuildersRoundTripThroughDecoder :
    conformsFeatureAbort tc1 = true ∧ (0xE : Nibble) ≠ 0xF ∧ conformsActiveSource tc1 = true := by decide

theorem witness_TransmitMakesOneCall :
    ready.fault = none ∧ (reply 0).wellFormed = true ∧ drawTransmit ready (reply 0) = .answered (.ok true) ∧
    drawTransmit (failing ⟨1⟩) (reply 0) = .answered (.err ⟨1⟩) := ⟨rfl, by decide, rfl, rfl⟩

theorem witness_MalformedArgumentFaults :
    ready.fault = none ∧ ({ reply 0 with operands := zeros 15 } : TxRequest).wellFormed = false ∧
    (CarriedResult.message 0 4 0x89 (zeros 15)).wellFormed = false := by decide

theorem witness_RegisterWritesSelfOnAcceptance :
    fresh.fault = none ∧ drawRegister fresh 4 = .answered (.ok ()) ∧
    drawRegister (failing ⟨1⟩) 4 = .answered (.err ⟨1⟩) := ⟨rfl, rfl, rfl⟩

theorem witness_GetPhysAddrAsksTransport :
    ready.fault = none ∧ drawPhysAddr ready = .answered (.ok 0x1200) ∧
    drawPhysAddr (failing ⟨1⟩) = .answered (.err ⟨1⟩) := ⟨rfl, rfl, rfl⟩

theorem witness_TransportErrorsAreRelayed :
    (failing ⟨1⟩).fault = none ∧ drawRegister (failing ⟨1⟩) 4 = .answered (.err ⟨1⟩) ∧
    drawPhysAddr (failing ⟨1⟩) = .answered (.err ⟨1⟩) ∧ drawReceive (failing ⟨1⟩) = .answered (.err ⟨1⟩) ∧
    drawTransmit (failing ⟨1⟩) (reply 0) = .answered (.err ⟨1⟩) ∧ (reply 0).wellFormed = true ∧
    (failing ⟨1⟩).ctxSelfLa = some 4 ∧ (zeros 14).length ≤ 14 :=
  ⟨rfl, rfl, rfl, rfl, rfl, by decide, rfl, by decide⟩

/-- The last clause: a received GIVE_DEVICE_VENDOR_ID whose reply meets an error. -/
theorem witness_TransportErrorsAreRelayed_reply :
    let s := { ready with env := answers (.answered (.ok [0x04, 0x8C])) (.answered (.err ⟨1⟩)) }
    s.fault = none ∧ drawReceive s = .answered (.ok [0x04, 0x8C]) ∧ s.ctxSelfLa = some 4 ∧
    decodeBytes s.cfg [0x04, 0x8C] = some (.message 0 4 0x8C [] (.known "Give Device Vendor ID")) ∧
    drawTransmit
        { s with hist := s.hist ++ [.receive (.ok [0x04, 0x8C])]
                 env := { s.env with receive := s.env.receive.tail, drawn := s.env.drawn + 1 } } (reply 0) =
      .answered (.err ⟨1⟩) := ⟨rfl, rfl, rfl, rfl, rfl⟩

theorem witness_UnansweredCallHasNoStep :
    stuck.fault = none ∧ (reply 0).wellFormed = true ∧ drawRegister stuck 4 = .never ∧
    drawPhysAddr stuck = .never ∧ drawTransmit stuck (reply 0) = .never ∧ drawReceive stuck = .never ∧
    stuck.ctxSelfLa = some 4 ∧ (zeros 14).length ≤ 14 :=
  ⟨rfl, by decide, rfl, rfl, rfl, rfl, rfl, by decide⟩

/-- The reply's transmit unanswered, after HANDLE_ONE's receive and after a received frame. -/
theorem witness_UnansweredCallHasNoStep_reply :
    let s := { ready with env := answers (.answered (.ok [0x04, 0x8C])) .never }
    s.fault = none ∧ drawReceive s = .answered (.ok [0x04, 0x8C]) ∧ s.ctxSelfLa = some 4 ∧
    decodeBytes s.cfg [0x04, 0x8C] = some (.message 0 4 0x8C [] (.known "Give Device Vendor ID")) ∧
    drawTransmit (afterReceive (.ok [0x04, 0x8C]) s) (reply 0) = .never ∧
    messageFields s.cfg (.frameGiveDeviceVendorId 0 4 []) = some (0, 4, 0x8C, []) ∧
    accepted s.cfg 4 0x8C 0 ∧ drawTransmit (afterDelivery [0x04, 0x8C] s) (reply 0) = .never :=
  ⟨rfl, rfl, rfl, rfl, rfl, rfl, by decide, rfl⟩

theorem witness_DispatchFeatureAbort :
    ready.fault = none ∧ ([0x8C, 0x04] : List Byte).length ≤ 14 ∧
    ((zeros 1).length ≤ 14 ∧ (zeros 1).length ≠ 2) ∧ (zeros 14).length ≤ 14 ∧ (zeros 14).length ≠ 2 := by decide

theorem witness_DispatchVendorIdReply :
    fresh.fault = none ∧ fresh.ctxSelfLa = none ∧ ready.fault = none ∧ ready.ctxSelfLa = some 4 ∧
    drawTransmit ready (reply 0) = .answered (.ok true) ∧ (zeros 14).length ≤ 14 :=
  ⟨rfl, rfl, rfl, rfl, rfl, by decide⟩

theorem witness_DispatchIgnoresOrDefaults :
    ready.fault = none ∧ (zeros 14).length ≤ 14 ∧ ready.cfg.opDeviceVendorId = 0x87 ∧
    ready.cfg.opVendorCommand = 0x89 ∧ (0x36 : Byte) ≠ 0x00 ∧ (0x36 : Byte) ≠ 0x8C ∧
    (0x36 : Byte) ≠ ready.cfg.opDeviceVendorId ∧ (0x36 : Byte) ≠ ready.cfg.opVendorCommand := by decide

/-- An error, lengths 0 and 17, and lengths 1 and 16, as receive answers. -/
theorem witness_HandleOneIsReceiveDecodeDispatch :
    ready.fault = none ∧ drawReceive (failing ⟨1⟩) = .answered (.err ⟨1⟩) ∧
    drawReceive { ready with env := answers (.answered (.ok [])) .never } = .answered (.ok []) ∧
    drawReceive { ready with env := answers (.answered (.ok (zeros 17))) .never } = .answered (.ok (zeros 17)) ∧
    drawReceive { ready with env := answers (.answered (.ok [0x03])) .never } = .answered (.ok [0x03]) ∧
    drawReceive { ready with env := answers (.answered (.ok (zeros 16))) .never } = .answered (.ok (zeros 16)) ∧
    (zeros 17).length = 17 ∧ (zeros 16).length = 16 := ⟨rfl, rfl, rfl, rfl, rfl, rfl, rfl, rfl⟩

theorem witness_HandleOneCompletes :
    ready.fault = none ∧ drawReceive ready = .answered (.ok [0x04, 0x8C]) ∧
    ∀ req, drawTransmit (afterReceive (.ok [0x04, 0x8C]) ready) req ≠ .never := ⟨rfl, rfl, nofun⟩

/-- The byte above R75's bound. -/
theorem witness_ReasonBytesNameReasons : 4 < (5 : Byte).toNat ∧ 4 < (0xFF : Byte).toNat := by decide

theorem witness_DecodeErrorsStayInsideDispatch :
    routes ready.cfg .handleOne = true ∧ ∃ t, exec .handleOne ready = .next t ∧
      t.response = some (.dispatched (.replied true)) := ⟨rfl, _, rfl, rfl⟩

/-- Accepted frames, with the counts at their class's bounds. -/
theorem witness_ReceivedFeatureAbort : ready.fault = none ∧ accepted ready.cfg 3 0x00 2 := by decide

theorem witness_ReceivedVendorIdRequest :
    accepted ready.cfg 4 0x8C 0 ∧ fresh.fault = none ∧ fresh.ctxSelfLa = none ∧ ready.fault = none ∧
    ready.ctxSelfLa = some 4 ∧
    drawTransmit { ready with hist := ready.hist ++ [.receive (.ok [0x04, 0x8C])]
                              env := { ready.env with drawn := ready.env.drawn + 1 } } (reply 0) =
      .answered (.ok true) := ⟨by decide, rfl, rfl, rfl, rfl, rfl⟩

theorem witness_ReceivedVendorFramesIgnored :
    ready.fault = none ∧ ready.cfg.opDeviceVendorId ≠ 0x00 ∧ ready.cfg.opDeviceVendorId ≠ 0x8C ∧
    accepted ready.cfg 15 ready.cfg.opDeviceVendorId 3 ∧ ready.cfg.opVendorCommand ≠ 0x00 ∧
    ready.cfg.opVendorCommand ≠ 0x8C ∧ accepted ready.cfg 4 ready.cfg.opVendorCommand 0 ∧
    accepted ready.cfg 4 ready.cfg.opVendorCommand 14 := by decide

/-- 0x91, OP_ACTIVE_SOURCE, OP_GIVE_DEVICE_POWER_STATUS and STANDBY meet the premises under TC1. -/
theorem witness_ReceivedOtherFramesDefault :
    ready.fault = none ∧ accepted ready.cfg 4 0x91 0 ∧ accepted ready.cfg 15 ready.cfg.opActiveSource 2 ∧
    accepted ready.cfg 4 ready.cfg.opGiveDevicePowerStatus 0 ∧ accepted ready.cfg 15 0x36 0 ∧
    ([0x91, 0x82, 0x8F, 0x36].all fun op : Byte => op != 0x00 && op != 0x8C &&
      op != ready.cfg.opDeviceVendorId && op != ready.cfg.opVendorCommand) = true := by decide

theorem witness_RejectedFramesAreDropped :
    ready.fault = none ∧
    messageFields ready.cfg (.frameGiveDeviceVendorId 0 15 (zeros 14)) = some (0, 15, 0x8C, zeros 14) ∧
    (zeros 14).length ≤ 14 ∧ ¬ accepted ready.cfg 15 0x8C 14 ∧
    messageFields ready.cfg (.frameVendorCommand 0 4 (zeros 15)) = some (0, 4, 0x89, zeros 15) ∧
    14 < (zeros 15).length := ⟨rfl, rfl, by decide, by decide, rfl, by decide⟩

theorem witness_FrameInstructionIsHandleOne :
    ready.fault = none ∧ encode ready.cfg (.framePoll 0 3) = .frame [0x03] ∧
    encode ready.cfg (.frameActiveSource 3 15 [0x12, 0x00]) = .frame [0x3F, 0x82, 0x12, 0x00] := ⟨rfl, rfl, rfl⟩

/-- A faulted codec, with two requests pending. -/
def faulted : State :=
  { ready with fault := some .unregistered, inbox := [.item (.request { cmd := 0xA }), .item (.frame [0x03])] }

theorem witness_FaultIsSticky :
    faulted.fault = some .unregistered ∧ Input.reset ∉ faulted.inbox.take 2 := ⟨rfl, by decide⟩

theorem witness_FaultingRequestGivesNoResponse :
    ∃ t, exec .reservedCmdD ready = .next t ∧ t.fault ≠ none := ⟨_, rfl, by decide⟩

theorem witness_ResetClearsCodecState :
    ({ faulted with inbox := [.reset, .reset] } : State).inbox = .reset :: [.reset] := rfl

/-- An instruction and a step that answer a next state: for the statements about every instruction and step. -/
theorem witness_next_state :
    (∃ t, exec (.classify 0x00) ready = .next t) ∧ isPure (.classify 0x00) = true ∧
    (∃ t, exec (.transmit (some (reply 0))) ready = .next t) ∧
    (∃ t, exec .handleOne ready = .next t) ∧
    ∃ t, step { ready with inbox := [.item (.request { cmd := 0xB, la := 7 })] } = .next t :=
  ⟨⟨_, rfl⟩, rfl, ⟨_, rfl⟩, ⟨_, rfl⟩, ⟨_, rfl⟩⟩

/-- Two steps with a REGISTER between the two equal requests. -/
theorem witness_PureRequestsRepeat :
    isPure (.describe 0x91) = true ∧ ready.fault = none ∧
    ∃ t, Sys2Proof.core.run 2 { ready with inbox := [.item (.request { cmd := 0xB, la := 7 })] } = .next t ∧
      t.fault = none := ⟨rfl, rfl, _, rfl, rfl⟩

/-- A registered codec whose history says so, about to take another registration. -/
def registered : State :=
  { ready with hist := [.register 4 (.ok ())], inbox := [.item (.request { cmd := 0xB, la := 7 })] }

theorem witness_SelfIsLastRegistrationKept :
    selfIsLastRegistration registered ∧ ∃ t, step registered = .next t := ⟨rfl, _, rfl⟩

theorem witness_SentRequestsStayWellFormed :
    sentWellFormed registered ∧ ∃ t, step registered = .next t :=
  ⟨by intro req r h; simp [registered] at h, _, rfl⟩

theorem witness_ResultsDoNotDependOnHistory :
    scripted ready.env ∧ (∃ t, exec .handleOne ready = .next t) ∧
    scripted stuck.env ∧ exec .handleOne stuck = .fault (.hang .receive) :=
  ⟨by simp only [scripted]; decide, ⟨_, rfl⟩, by simp only [scripted]; decide, rfl⟩

theorem witness_TextsNeverSteer : describes .handleOne = false := rfl

theorem witness_NoDestinationFilter :
    let v := { ready with env := { ready.env with
      receive := .answered (.ok [0x04, 0x8C]) :: ready.env.receive } }
    let v' := { ready with env := { ready.env with
      receive := .answered (.ok [0x07, 0x8C]) :: ready.env.receive } }
    accepted ready.cfg 4 0x8C 0 ∧ accepted ready.cfg 7 0x8C 0 ∧
    (∀ req, drawTransmit (afterReceive (.ok [0x04, 0x8C]) v) req =
      drawTransmit (afterReceive (.ok [0x07, 0x8C]) v') req) ∧
    messageFields ready.cfg (.frameGiveDeviceVendorId 0 4 []) = some (0, 4, 0x8C, []) ∧
    messageFields ready.cfg (.frameGiveDeviceVendorId 0 7 []) = some (0, 7, 0x8C, []) ∧
    ∀ req, drawTransmit (afterDelivery [0x04, 0x8C] ready) req =
      drawTransmit (afterDelivery [0x07, 0x8C] ready) req :=
  ⟨by decide, by decide, fun _ => rfl, rfl, rfl, fun _ => rfl⟩

/-- Reactions do differ where the sender does: the relation is not empty of meaning. -/
theorem test_sameReaction :
    ¬ sameReaction (exec (.frameGiveDeviceVendorId 0 4 []) ready) (exec (.frameGiveDeviceVendorId 1 4 []) ready) := by
  rintro ⟨-, -, -, h⟩
  exact absurd h (by decide)

/-- Calls that are answered; an instruction that makes none, where no call would be; and calls that are not. -/
theorem witness_EveryInstructionCompletes :
    callsAnswered .handleOne ready ∧ callsAnswered (.register 7) ready ∧ callsAnswered .getPhysAddr ready ∧
    callsAnswered (.transmit (some (reply 0))) ready ∧ callsAnswered (.dispatch (some (.message 0 4 0x8C []))) ready ∧
    callsAnswered (.frameGiveDeviceVendorId 0 4 []) ready ∧ callsAnswered (.classify 0x00) stuck ∧
    ¬ callsAnswered .handleOne stuck :=
  ⟨⟨nofun, fun _ _ _ _ _ _ _ _ _ => nofun⟩, nofun, nofun, fun _ _ _ => nofun, fun _ _ _ _ _ _ _ => nofun,
    fun _ _ _ _ _ _ _ _ _ _ _ _ => nofun, nofun, fun h => h.1 rfl⟩

/-- V-D1: a Polling response has no opcode and no operands to read. -/
theorem test_polling_bundle :
    (responseBundle (.decoded (.polling 0 3))).dres =
      some { status := 0, kind := 0, initiator := 0, destination := 3, opcode := none, oplen := none,
             operands := [] } := rfl

/-- From reset nothing is scripted: each call's draw is free, so it may be that it never answers (R264). -/
theorem test_reset_draws_free :
    drawRegister State.reset 4 = Config.freeRegister 0 [] 4 ∧ drawPhysAddr State.reset = Config.freePhysAddr 0 [] ∧
    drawTransmit State.reset (reply 0) = Config.freeTransmit 0 [] (reply 0) ∧
    drawReceive State.reset = Config.freeReceive 0 [] := ⟨rfl, rfl, rfl, rfl⟩

/-- R264: a receive that is never answered, and the reply's transmit after an answered receive. -/
theorem test_hang :
    exec .handleOne stuck = .fault (.hang .receive) ∧
    exec .handleOne { ready with env := answers (.answered (.ok [0x04, 0x8C])) .never } =
      .fault (.hang .transmit) := ⟨rfl, rfl⟩

theorem witness_StepRunsDecodedInstruction :
    faulted.inbox = .item (.request { cmd := 0xA }) :: [.item (.frame [0x03])] ∧
    decodeItem faulted.cfg (.request { cmd := 0xA }) = .ok .handleOne ∧
    decodeFrame ready.cfg [] = .error .empty ∧ decodeFrame ready.cfg (zeros 17) = .error .tooLong ∧
    ready.fault = none ∧ ready.inbox = [] := ⟨rfl, rfl, rfl, rfl, rfl, rfl⟩

end Sys2Proof.Tests
end

/-! What an instruction and a step leave unchanged (spec/10_state.md R25, R26; spec/20_memory.md R50):
the configuration, the host's inputs and, except under REGISTER, CTX_SELF_LA. -/

namespace Sys2Proof.Machine

/-- The fields that no instruction but REGISTER writes have the same value in both states. -/
structure SameSetup (s t : State) : Prop where
  cfg : t.cfg = s.cfg
  inbox : t.inbox = s.inbox
  self : t.ctxSelfLa = s.ctxSelfLa

/-! ## Instructions -/

theorem Routed.sameSetup {u t : State} (h : Routed u t) : SameSetup u t := by
  rcases h with ⟨_, rfl⟩ | ⟨_, rfl⟩ | ⟨_, _, _, _, rfl⟩ <;> exact ⟨rfl, rfl, rfl⟩

/-- The Receive event that comes first writes only HIST and the environment, so the routing after it decides. -/
theorem RoutedFrom.sameSetup {s t : State} (h : RoutedFrom s t) : SameSetup s t := by
  rcases h with h | ⟨_, rfl⟩ | ⟨_, h⟩ | ⟨_, h⟩
  · exact h.sameSetup
  · exact ⟨rfl, rfl, rfl⟩
  · exact ⟨h.sameSetup.cfg, h.sameSetup.inbox, h.sameSetup.self⟩
  · exact ⟨h.sameSetup.cfg, h.sameSetup.inbox, h.sameSetup.self⟩

/-- Only a registration the transport accepts (R201) writes CTX_SELF_LA. -/
theorem Served.sameSetup_or_register {i : Instr} {s t : State} (h : Served i s t) :
    SameSetup s t ∨ ∃ la, i = .register la ∧
      t = respond .registered { afterRegister la (.ok ()) s with ctxSelfLa := some la } := by
  rcases h with ⟨_, _, rfl⟩ | ⟨_, rfl⟩ | ⟨_, _, _, _, rfl⟩ | hreg | ⟨_, _, _, rfl⟩ | ⟨_, _, rfl⟩
  · exact .inl ⟨rfl, rfl, rfl⟩
  · exact .inl ⟨rfl, rfl, rfl⟩
  · exact .inl ⟨rfl, rfl, rfl⟩
  · exact .inr hreg
  · exact .inl ⟨rfl, rfl, rfl⟩
  · exact .inl ⟨rfl, rfl, rfl⟩

theorem exec_sameSetup_or_register {i : Instr} {s t : State} (h : exec i s = .next t) :
    SameSetup s t ∨ ∃ la, i = .register la ∧
      t = respond .registered { afterRegister la (.ok ()) s with ctxSelfLa := some la } := by
  rcases exec_next h with ⟨_, _, rfl⟩ | ⟨_, h | ⟨_, h⟩⟩
  · exact .inl ⟨rfl, rfl, rfl⟩
  · exact h.sameSetup_or_register
  · exact .inl h.sameSetup

theorem exec_cfg {i : Instr} {s t : State} (h : exec i s = .next t) : t.cfg = s.cfg := by
  rcases exec_sameSetup_or_register h with h | ⟨_, _, rfl⟩
  · exact h.cfg
  · rfl

theorem exec_inbox {i : Instr} {s t : State} (h : exec i s = .next t) : t.inbox = s.inbox := by
  rcases exec_sameSetup_or_register h with h | ⟨_, _, rfl⟩
  · exact h.inbox
  · rfl

theorem exec_ctxSelfLa {i : Instr} {s t : State} (h : exec i s = .next t) (hi : ∀ la, i ≠ .register la) :
    t.ctxSelfLa = s.ctxSelfLa := by
  rcases exec_sameSetup_or_register h with h | ⟨la, hreg, _⟩
  · exact h.self
  · exact absurd hreg (hi la)

theorem receiveFrame_cfg {bytes : List Byte} {s t : State} (h : receiveFrame bytes s = .next t) :
    t.cfg = s.cfg := by
  rcases receiveFrame_next h with ⟨_, _, rfl⟩ | ⟨_, h⟩
  · rfl
  · exact h.sameSetup.cfg

/-! ## Pure requests -/

/-- With FAULT clear, a pure request's outcome is fixed by the configuration: one response or one fault, the same in
every state that has it. -/
theorem exec_of_isPure {i : Instr} (hi : isPure i = true) (cfg : Config) :
    (∃ r, ∀ s : State, s.fault = none → s.cfg = cfg → exec i s = .next (respond r s)) ∨
    (∃ c, ∀ s : State, s.fault = none → s.cfg = cfg → exec i s = .next (raiseFault c s)) := by
  cases i with
  | classify op =>
    exact .inl ⟨.classified (classify cfg op), fun s hf hc => by
      simp [exec, execClassify, serve_of_healthy hf, hc]⟩
  | describe op =>
    exact .inl ⟨.described (describe cfg op), fun s hf hc => by
      simp [exec, execDescribe, serve_of_healthy hf, hc]⟩
  | decode flen fbytes =>
    cases hd : (frameArgument flen fbytes).bind (decodeBytes cfg) with
    | none =>
      exact .inr ⟨.lengthContract, fun s hf hc => by simp [exec, execDecode, serve_of_healthy hf, hc, hd]⟩
    | some r =>
      exact .inl ⟨.decoded r, fun s hf hc => by simp [exec, execDecode, serve_of_healthy hf, hc, hd]⟩
  | buildPing i d =>
    exact .inl ⟨.built (pingRequest i d), fun s hf _ => by simp [exec, execBuildPing, serve_of_healthy hf]⟩
  | buildSimple i d op =>
    exact .inl ⟨.built (simpleRequest i d op), fun s hf _ => by
      simp [exec, execBuildSimple, serve_of_healthy hf]⟩
  | buildFeatureAbort i d aop reason =>
    by_cases hr : reason > 0x04
    · exact .inl ⟨.invalidBuildInput, fun s hf _ => by
        simp only [exec, execBuildFeatureAbort, serve_of_healthy hf, if_pos hr]⟩
    · exact .inl ⟨.built (featureAbortRequest i d aop reason), fun s hf _ => by
        simp only [exec, execBuildFeatureAbort, serve_of_healthy hf, if_neg hr]⟩
  | buildActiveSource i pa =>
    exact .inl ⟨.built (activeSourceRequest cfg i pa), fun s hf hc => by
      simp [exec, execBuildActiveSource, serve_of_healthy hf, hc]⟩
  | _ => simp [isPure] at hi

/-- Everything a pure request can do: be refused, respond, or fault. -/
theorem exec_next_of_isPure {i : Instr} {s t : State} (hi : isPure i = true) (h : exec i s = .next t) :
    t = noResponse s ∨ (∃ r, t = respond r s) ∨ (∃ c, t = raiseFault c s) := by
  cases hf : s.fault with
  | some c =>
    obtain ⟨body, hbody⟩ := exec_serves i s
    rw [hbody, serve_of_faulted hf] at h
    exact .inl (by simpa using h.symm)
  | none =>
    rcases exec_of_isPure hi s.cfg with ⟨r, hr⟩ | ⟨c, hc⟩
    · exact .inr (.inl ⟨r, by simpa [hr s hf rfl] using h.symm⟩)
    · exact .inr (.inr ⟨c, by simpa [hc s hf rfl] using h.symm⟩)

theorem exec_frame_of_isPure {i : Instr} {s t : State} (hi : isPure i = true) (h : exec i s = .next t) :
    t.ctxSelfLa = s.ctxSelfLa ∧ t.hist = s.hist ∧ t.env = s.env := by
  rcases exec_next_of_isPure hi h with rfl | ⟨_, rfl⟩ | ⟨_, rfl⟩ <;> exact ⟨rfl, rfl, rfl⟩

/-! ## Steps and runs -/

/-- Everything an encoded input can do: run the instruction it decodes to, or be received as bytes that are no
frame. -/
theorem stepItem_next {w : Item} {s t : State} (h : stepItem w s = .next t) :
    (∃ i, decodeItem s.cfg w = .ok i ∧ exec i s = .next t) ∨
    (∃ e, decodeItem s.cfg w = .error e ∧ receiveFrame (itemBytes w) s = .next t) := by
  unfold stepItem at h
  split at h
  · exact .inl ⟨_, ‹_›, h⟩
  · exact .inr ⟨_, ‹_›, h⟩

/-- Everything a step can do: idle, reset, or take the next encoded input. -/
theorem step_next {s t : State} (h : step s = .next t) :
    (s.inbox = [] ∧ t = s) ∨
    (∃ rest, s.inbox = .reset :: rest ∧ t = resetCodec { s with inbox := rest }) ∨
    (∃ w rest, s.inbox = .item w :: rest ∧ stepItem w { s with inbox := rest } = .next t) := by
  unfold step at h
  split at h
  · exact .inl ⟨‹_›, by simpa using h.symm⟩
  · exact .inr (.inl ⟨_, ‹_›, by simpa using h.symm⟩)
  · exact .inr (.inr ⟨_, _, ‹_›, h⟩)

theorem stepItem_cfg {w : Item} {s t : State} (h : stepItem w s = .next t) : t.cfg = s.cfg := by
  rcases stepItem_next h with ⟨_, _, h⟩ | ⟨_, _, h⟩
  · exact exec_cfg h
  · exact receiveFrame_cfg h

theorem step_cfg {s t : State} (h : step s = .next t) : t.cfg = s.cfg := by
  rcases step_next h with ⟨_, rfl⟩ | ⟨_, _, rfl⟩ | ⟨_, _, _, h⟩
  · rfl
  · rfl
  · exact (stepItem_cfg h :)

/-- A run of `k + 1` steps is a step and a run of `k`. -/
theorem core_run_succ_next {k : Nat} {s t : State} (h : Sys2Proof.core.run (k + 1) s = .next t) :
    ∃ u, step s = .next u ∧ Sys2Proof.core.run k u = .next t := by
  simp only [Host.Core.run] at h
  split at h
  · exact ⟨_, ‹_›, h⟩
  · cases h
  · cases h

theorem core_run_cfg {k : Nat} {s t : State} (h : Sys2Proof.core.run k s = .next t) : t.cfg = s.cfg := by
  induction k generalizing s with
  | zero => cases h; rfl
  | succ k ih =>
    obtain ⟨u, hstep, hrun⟩ := core_run_succ_next h
    exact (ih hrun).trans (step_cfg hstep)

/-! ## The obligations -/

/-- Settles O49, from the inversion lemmas of `exec` and `step`. -/
theorem instructionsWriteOnlyCodecState : Obligations.InstructionsWriteOnlyCodecState :=
  ⟨fun _ _ _ h => ⟨exec_cfg h, exec_inbox h, exec_ctxSelfLa h, fun hi => exec_frame_of_isPure hi h⟩,
    fun _ _ => step_cfg⟩

/-- Settles O50: a pure request reads the configuration alone, and a run keeps it. -/
theorem pureRequestsRepeat : Obligations.PureRequestsRepeat := by
  intro k s t i hi hrun hs ht
  have hcfg : t.cfg = s.cfg := core_run_cfg hrun
  rcases exec_of_isPure hi s.cfg with ⟨r, hr⟩ | ⟨c, hc⟩
  · exact ⟨respond r s, respond r t, hr s hs rfl, hr t ht hcfg, rfl, hs.trans ht.symm⟩
  · exact ⟨raiseFault c s, raiseFault c t, hc s hs rfl, hc t ht hcfg, rfl, rfl⟩

end Sys2Proof.Machine

/-! HANDLE_ONE where the environment answers its calls (spec/43_dispatch.md R200, R205; spec/20_memory.md R48): the
routing after the Receive event reaches a next state, and only a GIVE_DEVICE_VENDOR_ID makes it reply. -/

namespace Sys2Proof.Machine

/-! ## Which bytes decode to a message -/

/-- Steps 2 to 6 of DECODE hand on the header, opcode and operands they check (R130). -/
theorem decodeMessage_eq_message {cfg : Config} {i d i' d' : Nibble} {op op' : Byte} {ops ops' : List Byte}
    {desc : Description} (h : decodeMessage cfg i d op ops = .message i' d' op' ops' desc) :
    i = i' ∧ d = d' ∧ op = op' ∧ ops = ops' := by
  simp only [decodeMessage] at h
  split_ifs at h
  cases h
  exact ⟨rfl, rfl, rfl, rfl⟩

/-- A message result repeats the frame it was decoded from (R60 to R64). -/
theorem decodeBytes_eq_message {cfg : Config} {bytes : List Byte} {i d : Nibble} {op : Byte} {ops : List Byte}
    {desc : Description} (h : decodeBytes cfg bytes = some (.message i d op ops desc)) :
    ∃ b0, bytes = b0 :: op :: ops ∧ i = hiNibble b0 ∧ d = loNibble b0 := by
  match bytes with
  | [] => simp [decodeBytes] at h
  | [_] => simp [decodeBytes] at h
  | b0 :: _ :: _ =>
    simp only [decodeBytes, Option.ite_none_right_eq_some, Option.some.injEq] at h
    obtain ⟨rfl, rfl, rfl, rfl⟩ := decodeMessage_eq_message h.2
    exact ⟨b0, rfl, rfl, rfl⟩

/-- A carried message is a decoded one without its description (R71). -/
theorem carried_eq_message {r : DecodeResult} {i d : Nibble} {op : Byte} {ops : List Byte} :
    carried r = .message i d op ops ↔ ∃ desc, r = .message i d op ops desc := by
  cases r <;> simp [carried]

/-! ## Answered calls give a next state -/

theorem vendorIdRequested_completes {sender : Nibble} {s : State} (h : replyAnswered sender s) :
    ∃ t, vendorIdRequested sender s = .next t := by
  unfold vendorIdRequested
  split
  · exact ⟨_, rfl⟩
  · next self hself =>
    obtain ⟨_, ha⟩ := exists_answered (h self hself)
    exact ⟨_, transmitOnce_of_answered ha⟩

/-- Only the reply to a GIVE_DEVICE_VENDOR_ID makes a call, so nothing else can keep a routing from completing. -/
theorem dispatchResult_completes {dr : CarriedResult} {s : State}
    (h : ∀ i d ops, dr = .message i d opGiveDeviceVendorId ops → replyAnswered i s) :
    ∃ t, dispatchResult dr s = .next t := by
  cases dr with
  | err k => exact ⟨_, rfl⟩
  | polling i d => exact ⟨_, rfl⟩
  | message i d op ops =>
    simp only [dispatchResult, dispatchMessage]
    by_cases hop : op = opGiveDeviceVendorId
    · subst hop
      exact vendorIdRequested_completes (h i d ops rfl)
    · rw [if_neg hop]
      split_ifs <;> exact ⟨_, rfl⟩

theorem handleReceived_completes {bytes : List Byte} {s : State} (h : bytesAnswered bytes s) :
    ∃ t, handleReceived bytes s = .next t := by
  unfold handleReceived
  split
  · exact ⟨_, rfl⟩
  · next r hr =>
    refine dispatchResult_completes fun i d ops hmsg => ?_
    obtain ⟨desc, rfl⟩ := carried_eq_message.mp hmsg
    exact h i d ops desc hr

/-! ## HANDLE_ONE by the answer of its receive -/

theorem exec_handleOne_of_err {s : State} {e : TransportErr} (hs : s.fault = none)
    (hd : drawReceive s = .answered (.err e)) :
    exec .handleOne s = .next (respond (.transportError e) (afterReceive (.err e) s)) := by
  simp only [exec, execHandleOne, serve_of_healthy hs, callReceive, hd, onDraw_answered]

theorem exec_handleOne_of_ok {s : State} {bytes : List Byte} (hs : s.fault = none)
    (hd : drawReceive s = .answered (.ok bytes)) :
    exec .handleOne s = handleReceived bytes (afterReceive (.ok bytes) s) := by
  simp only [exec, execHandleOne, serve_of_healthy hs, callReceive, hd, onDraw_answered]

theorem exec_handleOne_completes {s : State} (hs : s.fault = none) (h : callsAnswered .handleOne s) :
    ∃ t, exec .handleOne s = .next t := by
  obtain ⟨hreceive, hreply⟩ := h
  obtain ⟨r, hd⟩ := exists_answered hreceive
  cases r with
  | err e => exact ⟨_, exec_handleOne_of_err hs hd⟩
  | ok bytes =>
    rw [exec_handleOne_of_ok hs hd]
    exact handleReceived_completes (hreply bytes hd)

/-! ## The obligation -/

/-- Settles O34: the answered calls give the next state, and the inversion lemmas of decoding and routing say which
of its forms it has. -/
theorem handleOneCompletes : Obligations.HandleOneCompletes := by
  intro s u r hs hd hu hanswered
  obtain rfl : u = afterReceive r s := hu
  have hcalls : callsAnswered .handleOne s := by
    refine ⟨by simp [hd], fun bytes hb => ?_⟩
    obtain rfl : r = .ok bytes := by simpa [hd] using hb
    exact fun _ _ _ _ _ _ _ => hanswered _
  obtain ⟨t, hexec⟩ := exec_handleOne_completes hs hcalls
  have setup : t.ctxSelfLa = s.ctxSelfLa ∧ t.cfg = s.cfg ∧ t.inbox = s.inbox :=
    ⟨exec_ctxSelfLa hexec nofun, exec_cfg hexec, exec_inbox hexec⟩
  cases r with
  | err e =>
    obtain rfl : _ = t := by simpa [exec_handleOne_of_err hs hd] using hexec
    exact ⟨_, [], hexec, rfl, .inl rfl, .inl ⟨hs, rfl⟩, setup⟩
  | ok bytes =>
    have hrecv := exec_handleOne_of_ok hs hd ▸ hexec
    rcases handleReceived_next hrecv with ⟨_, rfl⟩ | ⟨dr, hdec, hdisp⟩
    · exact ⟨_, [], hexec, rfl, .inl rfl, .inr (.inl ⟨rfl, rfl, rfl⟩), setup⟩
    rcases dispatchResult_next hdisp with ⟨_, rfl⟩ | ⟨hself, rfl⟩ | ⟨i, d, ops, self, a, hmsg, hself, rfl⟩
    · exact ⟨_, [], hexec, rfl, .inl rfl, .inl ⟨hs, rfl⟩, setup⟩
    · exact ⟨_, [], hexec, rfl, .inl rfl, .inr (.inr ⟨rfl, rfl, rfl, hself⟩), setup⟩
    · obtain ⟨desc, rfl⟩ := carried_eq_message.mp hmsg
      obtain ⟨b0, rfl, rfl, _⟩ := decodeBytes_eq_message hdec
      exact ⟨_, _, hexec, List.append_assoc _ _ _, .inr ⟨b0, ops, self, a, rfl, hself, rfl⟩, .inl ⟨hs, rfl⟩, setup⟩

end Sys2Proof.Machine

/-! Header bytes and frames (spec/30_encoding.md R60 to R64): the length of a byte sequence alone says whether it is a
frame and of which format, and the fields of a frame are the nibbles and bytes it was decoded from. -/

namespace Sys2Proof.Machine

/-! ## The header byte -/

/-- The header byte of R61 is its two nibbles side by side, so the library's laws of `++` give its value and its
round trip. -/
theorem header_eq_append (i d : Nibble) : header i d = i ++ d := by
  rw [BitVec.append_def, BitVec.shiftLeftZeroExtend_eq, BitVec.setWidth'_eq]
  rfl

theorem header_toNat (i d : Nibble) : (header i d).toNat = 16 * i.toNat + d.toNat := by
  rw [header_eq_append, BitVec.toNat_append, ← Nat.shiftLeft_add_eq_or_of_lt d.isLt, Nat.shiftLeft_eq]
  omega

@[simp] theorem header_hiNibble_loNibble (b : Byte) : header (hiNibble b) (loNibble b) = b := by
  rw [header_eq_append]
  exact (BitVec.extractLsb'_append_extractLsb'_eq_extractLsb' rfl).trans BitVec.extractLsb'_eq_self

/-! ## Frames -/

/-- Whichever row its opcode selects (R66), a MSG frame keeps the fields it was read with. -/
@[simp] theorem messageFields_decodeMsg (cfg : Config) (i d : Nibble) (op : Byte) (ops : List Byte) :
    messageFields cfg (decodeMsg cfg i d op ops) = some (i, d, op, ops) := by
  unfold decodeMsg
  split_ifs <;> simp [messageFields, *]

/-- From two bytes on, only the 14 operands a frame carries limit what is a frame (R60, R64). -/
theorem decodeFrame_msg_eq_ok {cfg : Config} {b0 op : Byte} {ops : List Byte} {i : Instr} :
    decodeFrame cfg (b0 :: op :: ops) = .ok i ↔
      ops.length ≤ maxPayload ∧ decodeMsg cfg (hiNibble b0) (loNibble b0) op ops = i := by
  by_cases hfit : ops.length ≤ 14 <;> simp [decodeFrame, hfit]

theorem decodeFrame_isOk {cfg : Config} {bytes : List Byte} :
    (∃ i, decodeFrame cfg bytes = .ok i) ↔ 1 ≤ bytes.length ∧ bytes.length ≤ 16 := by
  match bytes with
  | [] => simp [decodeFrame]
  | [_] => simp [decodeFrame]
  | _ :: _ :: ops =>
    simp only [decodeFrame_msg_eq_ok, exists_and_left, exists_eq', and_true, List.length_cons, maxPayload]
    omega

/-! ## The obligations -/

/-- Settles O1, from the header's value and its round trips with the two nibbles. -/
theorem headerByteNibbles : Obligations.HeaderByteNibbles :=
  ⟨fun i d => ⟨header_toNat i d, hiNibble_header i d, loNibble_header i d⟩, header_hiNibble_loNibble⟩

/-- Settles O2, by the three shapes of a byte sequence that the frame decoder tells apart. -/
theorem frameFormatsByLength : Obligations.FrameFormatsByLength := by
  refine fun cfg bytes => ⟨decodeFrame_isOk, fun b0 hone => hone ▸ rfl, fun i hdec hlen => ?_⟩
  match bytes with
  | [] => simp at hlen
  | [_] => simp at hlen
  | b0 :: b1 :: ops =>
    obtain ⟨-, rfl⟩ := decodeFrame_msg_eq_ok.mp hdec
    exact ⟨b0, b1, rfl, messageFields_decodeMsg cfg _ _ b1 ops⟩

end Sys2Proof.Machine

/-! CLASSIFY and DESCRIBE (spec/40_tables.md R102, R103): each looks its opcode up in its own table, so the laws of
`lookup` decide the answer. -/

namespace Sys2Proof.Machine

/-! ## The lookups, by what the table has for the opcode -/

theorem classify_of_row {cfg : Config} {op : Byte} {p : OpcodeProperties} (h : (op, p) ∈ cfg.opcodeTable)
    (only : ∀ q, (op, q) ∈ cfg.opcodeTable → q = p) : classify cfg op = p := by
  simp only [classify, lookup_of_row h only, Option.getD_some]

theorem describe_of_row {cfg : Config} {op : Byte} {t : DescText} (h : (op, t) ∈ cfg.descriptionTable)
    (only : ∀ u, (op, u) ∈ cfg.descriptionTable → u = t) : describe cfg op = .known t := by
  simp only [describe, lookup_of_row h only]

theorem describe_of_unlisted {cfg : Config} {op : Byte} (h : ∀ e ∈ cfg.descriptionTable, e.1 ≠ op) :
    describe cfg op = .unsupported := by
  simp only [describe, lookup_of_unlisted h]

/-! ## The requests with FAULT clear -/

theorem exec_classify_of_healthy {s : State} (op : Byte) (hs : s.fault = none) :
    exec (.classify op) s = .next (respond (.classified (classify s.cfg op)) s) := by
  simp only [exec, execClassify, serve_of_healthy hs]

theorem exec_describe_of_healthy {s : State} (op : Byte) (hs : s.fault = none) :
    exec (.describe op) s = .next (respond (.described (describe s.cfg op)) s) := by
  simp only [exec, execDescribe, serve_of_healthy hs]

/-! ## The obligations -/

/-- Settles O9: the row the table has for the opcode is the one CLASSIFY looks up. -/
theorem classifyReturnsTableRow : Obligations.ClassifyReturnsTableRow := by
  intro op s p hs hrow only
  have hexec := exec_classify_of_healthy op hs
  rw [classify_of_row hrow only] at hexec
  exact ⟨hexec, rfl⟩

/-- Settles O11, by whether the description table has a row for the opcode. -/
theorem describeReadsDescriptionTableAlone : Obligations.DescribeReadsDescriptionTableAlone := by
  intro op s hs
  have hexec := exec_describe_of_healthy op hs
  refine ⟨fun t hrow only => ?listed, fun hnone => ⟨?unlisted, rfl⟩⟩
  case listed =>
    rw [describe_of_row hrow only] at hexec
    exact hexec
  case unlisted =>
    rw [describe_of_unlisted hnone] at hexec
    exact hexec

end Sys2Proof.Machine

/-! DECODE (spec/41_decoder.md R130 to R142): the length of the argument alone says whether there is a frame, and on a
frame with an opcode each check of the decoder decides where those before it pass. -/

namespace Sys2Proof.Machine

/-! ## The frame argument -/

theorem frameArgument_of_bad_length {flen : FrameLen} {fb : Vector Byte 16}
    (h : flen.toNat = 0 ∨ 16 < flen.toNat) : frameArgument flen fb = none := if_pos h

theorem frameArgument_of_good_length {flen : FrameLen} {fb : Vector Byte 16}
    (h : ¬ (flen.toNat = 0 ∨ 16 < flen.toNat)) : frameArgument flen fb = some (fb.toList.take flen.toNat) :=
  if_neg h

/-- The header and opcode come first, whatever follows them (R60). -/
theorem frame_toList_eq_cons_cons (fb : Vector Byte 16) : fb.toList = fb[0] :: fb[1] :: fb.toList.drop 2 := by
  rw [← Vector.getElem_toList (by simp), ← Vector.getElem_toList (by simp), List.cons_getElem_drop_succ,
    List.cons_getElem_drop_succ, List.drop_zero]

theorem frameArgument_one (fb : Vector Byte 16) : frameArgument 1 fb = some [fb[0]] := by
  rw [frameArgument_of_good_length (by decide), frame_toList_eq_cons_cons]
  rfl

/-- From two bytes on, the frame is a header, an opcode and the operands from the third byte on (R132). -/
theorem frameArgument_of_two_le {flen : FrameLen} {fb : Vector Byte 16} (hlo : 2 ≤ flen.toNat)
    (hhi : flen.toNat ≤ 16) :
    frameArgument flen fb = some (fb[0] :: fb[1] :: (fb.toList.drop 2).take (flen.toNat - 2)) := by
  obtain ⟨n, hn⟩ := Nat.exists_eq_add_of_le' hlo
  rw [frameArgument_of_good_length (by omega), frame_toList_eq_cons_cons, hn, List.take_succ_cons,
    List.take_succ_cons]
  rfl

theorem length_operands {flen : FrameLen} (fb : Vector Byte 16) (hhi : flen.toNat ≤ 16) :
    ((fb.toList.drop 2).take (flen.toNat - 2)).length = flen.toNat - 2 := by
  rw [List.length_take, List.length_drop, Vector.length_toList]
  omega

/-! ## The checks on a frame with an opcode -/

theorem decodeBytes_cons_cons {cfg : Config} {b0 op : Byte} {ops : List Byte} (h : ops.length ≤ 14) :
    decodeBytes cfg (b0 :: op :: ops) = some (decodeMessage cfg (hiNibble b0) (loNibble b0) op ops) := if_pos h

theorem recognized_eq_false {p : OpcodeProperties} :
    recognized p = false ↔ p.directedAllowed = false ∧ p.broadcastAllowed = false := Bool.or_eq_false_iff

theorem recognized_eq_true {p : OpcodeProperties} :
    recognized p = true ↔ ¬ (p.directedAllowed = false ∧ p.broadcastAllowed = false) := by
  rw [← recognized_eq_false, Bool.not_eq_false]

theorem lengthSatisfies_eq_true {c : LengthClass} {len : Nat} :
    lengthSatisfies c len = true ↔ c.min ≤ len ∧ len ≤ c.max := decide_eq_true_iff

theorem lengthSatisfies_eq_false {c : LengthClass} {len : Nat} :
    lengthSatisfies c len = false ↔ len < c.min ∨ c.max < len := by
  rw [lengthSatisfies, decide_eq_false_iff_not]
  omega

section
variable {cfg : Config} {i d : Nibble} {op : Byte} {ops : List Byte}

theorem decodeMessage_of_unrecognized (h : recognized (classify cfg op) = false) :
    decodeMessage cfg i d op ops = .err .unsupportedOpcode := if_pos (recognized_eq_false.mp h)

theorem decodeMessage_of_broadcast_mismatch (hrec : recognized (classify cfg op) = true) (hd : d = 0xF)
    (hflag : (classify cfg op).broadcastAllowed = false) :
    decodeMessage cfg i d op ops = .err .broadcastMismatch :=
  (if_neg (recognized_eq_true.mp hrec)).trans (if_pos ⟨hd, hflag⟩)

theorem decodeMessage_of_directed_mismatch (hrec : recognized (classify cfg op) = true) (hd : d ≠ 0xF)
    (hflag : (classify cfg op).directedAllowed = false) :
    decodeMessage cfg i d op ops = .err .directedMismatch :=
  (if_neg (recognized_eq_true.mp hrec)).trans <| (if_neg fun ⟨hb, _⟩ => hd hb).trans (if_pos ⟨hd, hflag⟩)

/-- An allowed addressing passes every check before the length's (R134 to R137). -/
theorem decodeMessage_of_bad_length
    (hflag : (if d = 0xF then (classify cfg op).broadcastAllowed else (classify cfg op).directedAllowed) = true)
    (hlen : lengthSatisfies (lengthClassOf cfg (classify cfg op).lengthClass) ops.length = false) :
    decodeMessage cfg i d op ops = .err .invalidPayloadLength := by
  by_cases hd : d = 15#4
  · have hb : (classify cfg op).broadcastAllowed = true := by simpa [hd] using hflag
    simp [decodeMessage, hd, hb, hlen]
  · have hf : (classify cfg op).directedAllowed = true := by simpa [hd] using hflag
    simp [decodeMessage, hd, hf, hlen]

end

/-! ## The request with FAULT clear -/

theorem exec_decode_of_bad_length {flen : FrameLen} {s : State} (fb : Vector Byte 16) (hs : s.fault = none)
    (h : flen.toNat = 0 ∨ 16 < flen.toNat) :
    exec (.decode flen fb) s = .next (raiseFault .lengthContract s) := by
  simp only [exec, execDecode, serve_of_healthy hs, frameArgument_of_bad_length h, Option.bind_none]

theorem exec_decode_of_decoded {flen : FrameLen} {fb : Vector Byte 16} {s : State} {bytes : List Byte}
    {r : DecodeResult} (hs : s.fault = none) (hframe : frameArgument flen fb = some bytes)
    (hdec : decodeBytes s.cfg bytes = some r) :
    exec (.decode flen fb) s = .next (respond (.decoded r) s) := by
  simp only [exec, execDecode, serve_of_healthy hs, hframe, Option.bind_some, hdec]

/-- Within the length contract DECODE has a result, whatever the tables say (R131). -/
theorem exists_decoded_of_good_length {flen : FrameLen} (fb : Vector Byte 16) (cfg : Config)
    (h : ¬ (flen.toNat = 0 ∨ 16 < flen.toNat)) : ∃ r, decodeBytes cfg (fb.toList.take flen.toNat) = some r := by
  apply Option.isSome_iff_exists.mp
  rw [decodeBytes_isSome, List.length_take, Vector.length_toList]
  omega

theorem respond_eq_of_healthy {s : State} (r : Response) (hs : s.fault = none) :
    respond r s = { s with fault := none, response := some r } := by
  rw [← hs]
  rfl

/-! ## The obligations -/

/-- Settles O13: the one byte of the frame is its header. -/
theorem decodePolling : Obligations.DecodePolling :=
  fun fb _ hs => exec_decode_of_decoded hs (frameArgument_one fb) rfl

/-- Settles O14: the frame's header, opcode and operands go through the checks of `decodeMessage`. -/
theorem decodeChecksInOrder : Obligations.DecodeChecksInOrder := by
  intro flen fb s hs hlo hhi
  have hlen := length_operands fb hhi
  have hexec := exec_decode_of_decoded hs (frameArgument_of_two_le hlo hhi)
    (decodeBytes_cons_cons (hlen.trans_le (by omega)))
  simp only [decodeMessage, lengthSatisfies_eq_false, payloadLength, hlen] at hexec
  exact hexec

/-- Settles O15, by whether the length keeps the contract: if so the result depends on the bytes and the configuration
alone, and if not the fault on neither. -/
theorem decodeIsPure : Obligations.DecodeIsPure := by
  intro flen fb s s' hs hs' hcfg
  by_cases hbad : flen.toNat = 0 ∨ 16 < flen.toNat
  · exact ⟨some .lengthContract, none, exec_decode_of_bad_length fb hs hbad,
      exec_decode_of_bad_length fb hs' hbad, .inr ⟨rfl, rfl, hbad⟩⟩
  · have hframe := frameArgument_of_good_length (fb := fb) hbad
    obtain ⟨r, hr⟩ := exists_decoded_of_good_length fb s.cfg hbad
    refine ⟨none, some (.decoded r), ?_, ?_, .inl rfl⟩
    · rw [exec_decode_of_decoded hs hframe hr, respond_eq_of_healthy _ hs]
    · rw [exec_decode_of_decoded hs' hframe (hcfg ▸ hr), respond_eq_of_healthy _ hs']

/-- Settles O16: each law is the check of `decodeMessage` that its premises single out. -/
theorem decoderLaws : Obligations.DecoderLaws := by
  intro cfg i d o ops hfit p r
  have hr : r = some (decodeMessage cfg i d o ops) := by
    simpa only [hiNibble_header, loNibble_header] using decodeBytes_cons_cons (b0 := header i d) hfit
  refine ⟨fun hrec => ?unsupported, fun hrec hd hflag => ?broadcast, fun hrec hd hflag => ?directed,
    fun hflag => ?addressed⟩
  case unsupported => rw [hr, decodeMessage_of_unrecognized hrec]
  case broadcast => rw [hr, decodeMessage_of_broadcast_mismatch hrec hd hflag]
  case directed => rw [hr, decodeMessage_of_directed_mismatch hrec hd hflag]
  case addressed =>
    cases hsat : lengthSatisfies (lengthClassOf cfg p.lengthClass) ops.length with
    | true =>
      obtain ⟨hmin, hmax⟩ := lengthSatisfies_eq_true.mp hsat
      exact .inl ⟨rfl, decodeBytes_of_accepted ⟨hflag, hmin, hmax, hfit⟩⟩
    | false => exact .inr ⟨rfl, by rw [hr, decodeMessage_of_bad_length hflag hsat]⟩

end Sys2Proof.Machine

/-! BUILD_SIMPLE and BUILD_ACTIVE_SOURCE (spec/42_builder.md R162, R164): the request built is a function of the
arguments and the configuration, and the physical address is split as R43 has it. -/

namespace Sys2Proof.Machine

/-- The high byte is the quotient of the address by 256 and the low byte its remainder (R43). -/
theorem toNat_eq_highByte_lowByte (pa : PhysAddr) :
    pa.toNat = 256 * (pa.extractLsb' 8 8).toNat + (pa.extractLsb' 0 8).toNat := by
  have high : (pa.extractLsb' 8 8).toNat = pa.toNat / 256 := by
    rw [BitVec.extractLsb'_toNat, Nat.shiftRight_eq_div_pow]
    omega
  have low : (pa.extractLsb' 0 8).toNat = pa.toNat % 256 := BitVec.extractLsb'_toNat ..
  rw [high, low, Nat.div_add_mod]

/-! ## The requests with FAULT clear -/

theorem exec_buildSimple_of_healthy {s : State} (i d : Nibble) (op : Byte) (hs : s.fault = none) :
    exec (.buildSimple i d op) s = .next (respond (.built (simpleRequest i d op)) s) := by
  simp only [exec, execBuildSimple, serve_of_healthy hs]

theorem exec_buildActiveSource_of_healthy {s : State} (i : Nibble) (pa : PhysAddr) (hs : s.fault = none) :
    exec (.buildActiveSource i pa) s = .next (respond (.built (activeSourceRequest s.cfg i pa)) s) := by
  simp only [exec, execBuildActiveSource, serve_of_healthy hs]

/-! ## The obligations -/

/-- Settles O18: the request built is `simpleRequest`, whatever the opcode. -/
theorem buildSimpleHasNoOperands : Obligations.BuildSimpleHasNoOperands :=
  fun i d op _ hs => ⟨simpleRequest i d op, exec_buildSimple_of_healthy i d op hs, rfl, rfl⟩

/-- Settles O20: the request built is `activeSourceRequest`, whose operands are the address's two bytes in order. -/
theorem buildActiveSourceIsBigEndian : Obligations.BuildActiveSourceIsBigEndian :=
  fun i pa s hs => ⟨activeSourceRequest s.cfg i pa, pa.extractLsb' 8 8, pa.extractLsb' 0 8,
    exec_buildActiveSource_of_healthy i pa hs, rfl, toNat_eq_highByte_lowByte pa, rfl⟩

end Sys2Proof.Machine

/-! DISPATCH of a message with FAULT clear (spec/43_dispatch.md R191, R194 to R199): one lemma for each arm of the
routing, with the operands of a FEATURE_ABORT and the reply to a GIVE_DEVICE_VENDOR_ID. -/

namespace Sys2Proof.Machine

/-! ## The request with FAULT clear -/

/-- DISPATCH routes a message of at most 14 operands by its opcode (R191). -/
theorem exec_dispatch_message_of_healthy {s : State} (i d : Nibble) (op : Byte) {ops : List Byte}
    (hs : s.fault = none) (hfit : ops.length ≤ 14) :
    exec (.dispatch (some (.message i d op ops))) s = dispatchMessage i op ops s := by
  have hwf : CarriedResult.wellFormed (.message i d op ops) = true := decide_eq_true hfit
  simp only [exec, execDispatch, serve_of_healthy hs, argumentIf_of_ok hwf, withArgument, dispatchResult]

/-! ## The arms of the routing -/

theorem dispatchMessage_featureAbort (i : Nibble) (ops : List Byte) (s : State) :
    dispatchMessage i opFeatureAbort ops s = .next (respond (.dispatched (featureAbortReceived ops)) s) := rfl

theorem dispatchMessage_vendorId (i : Nibble) (ops : List Byte) (s : State) :
    dispatchMessage i opGiveDeviceVendorId ops s = vendorIdRequested i s := rfl

theorem dispatchMessage_of_ignored {i : Nibble} {op : Byte} {ops : List Byte} {s : State}
    (habort : op ≠ opFeatureAbort) (hvendor : op ≠ opGiveDeviceVendorId)
    (h : op = s.cfg.opDeviceVendorId ∨ op = s.cfg.opVendorCommand) :
    dispatchMessage i op ops s = .next (respond (.dispatched .ignored) s) := by
  rw [dispatchMessage, if_neg habort, if_neg hvendor]
  split_ifs with hid hcmd
  · rfl
  · rfl
  · exact absurd h (not_or.mpr ⟨hid, hcmd⟩)

theorem dispatchMessage_of_default {i : Nibble} {op : Byte} {ops : List Byte} {s : State}
    (habort : op ≠ opFeatureAbort) (hvendor : op ≠ opGiveDeviceVendorId)
    (hid : op ≠ s.cfg.opDeviceVendorId) (hcmd : op ≠ s.cfg.opVendorCommand) :
    dispatchMessage i op ops s = .next (respond (.dispatched .default) s) := by
  rw [dispatchMessage, if_neg habort, if_neg hvendor, if_neg hid, if_neg hcmd]

/-- The reason bytes of R75 are those up to 0x04. -/
theorem reasonKnown_eq_decide (rb : Byte) : reasonKnown rb = decide (rb.toNat ≤ 4) := by
  unfold reasonKnown reasonOfByte
  match rb.toNat with
  | 0 | 1 | 2 | 3 | 4 => rfl
  | n + 5 => exact (decide_eq_false (by omega)).symm

theorem featureAbortReceived_pair (aop rb : Byte) :
    featureAbortReceived [aop, rb] = .featureAbortInfo aop rb (decide (rb.toNat ≤ 4)) := by
  rw [← reasonKnown_eq_decide]
  rfl

theorem featureAbortReceived_of_length_ne_two {ops : List Byte} (h : ops.length ≠ 2) :
    featureAbortReceived ops = .featureAbortMalformed := by
  match ops with
  | [] => rfl
  | [_] => rfl
  | [_, _] => exact absurd rfl h
  | _ :: _ :: _ :: _ => rfl

theorem vendorIdRequested_of_unregistered {sender : Nibble} {s : State} (h : s.ctxSelfLa = none) :
    vendorIdRequested sender s = .next (raiseFault .unregistered s) := by
  simp only [vendorIdRequested, h]

theorem vendorIdRequested_of_answered {sender self : Nibble} {s : State} {r : Answer Bool}
    (hself : s.ctxSelfLa = some self)
    (hd : drawTransmit s (featureAbortRequest self sender opGiveDeviceVendorId 0x00) = .answered r) :
    vendorIdRequested sender s =
      .next (respond (relay (fun ack => .dispatched (.replied ack)) r)
        (afterTransmit (featureAbortRequest self sender opGiveDeviceVendorId 0x00) r s)) := by
  simp only [vendorIdRequested, hself]
  exact transmitOnce_of_answered hd

/-! ## The obligations -/

/-- Settles O29: the operand count alone decides between the two dispositions. -/
theorem dispatchFeatureAbort : Obligations.DispatchFeatureAbort := by
  intro i d ops s hs hfit
  rw [exec_dispatch_message_of_healthy i d _ hs hfit, dispatchMessage_featureAbort]
  refine ⟨?_, fun hlen => ?_⟩
  · rintro aop rb rfl
    rw [featureAbortReceived_pair]
    rfl
  · rw [featureAbortReceived_of_length_ne_two hlen]
    rfl

/-- Settles O30: the reply depends on CTX_SELF_LA, the sender and the draw, never on the destination. -/
theorem dispatchVendorIdReply : Obligations.DispatchVendorIdReply := by
  intro i d ops s hs hfit
  rw [exec_dispatch_message_of_healthy i d _ hs hfit, dispatchMessage_vendorId]
  refine ⟨vendorIdRequested_of_unregistered, ?_⟩
  rintro self _ r hself rfl hd
  rw [vendorIdRequested_of_answered hself hd]
  cases r <;> rfl

/-- Settles O31, from the last two arms of the routing. -/
theorem dispatchIgnoresOrDefaults : Obligations.DispatchIgnoresOrDefaults := by
  intro i d op ops s hs hfit habort hvendor
  rw [exec_dispatch_message_of_healthy i d op hs hfit]
  exact ⟨dispatchMessage_of_ignored habort hvendor, dispatchMessage_of_default habort hvendor⟩

end Sys2Proof.Machine

/-! The events an instruction appends to HIST (spec/43_dispatch.md R204, R205): no Transmit but TRANSMIT's own and the
reply to a decoded GIVE_DEVICE_VENDOR_ID, and never more than one. -/

namespace Sys2Proof.Machine

/-! ## The events a routing appends -/

/-- Routing a decode result appends no event but the reply to a GIVE_DEVICE_VENDOR_ID (R204). -/
theorem dispatchResult_hist {dr : CarriedResult} {s t : State} (h : dispatchResult dr s = .next t) :
    t.hist = s.hist ∨ ∃ sender dest ops self r, dr = .message sender dest opGiveDeviceVendorId ops ∧
      s.ctxSelfLa = some self ∧
      t.hist = s.hist ++ [.transmit (featureAbortRequest self sender opGiveDeviceVendorId 0x00) r] := by
  rcases dispatchResult_next h with ⟨_, rfl⟩ | ⟨_, rfl⟩ | ⟨sender, dest, ops, self, r, hdr, hself, rfl⟩
  · exact .inl rfl
  · exact .inl rfl
  · exact .inr ⟨sender, dest, ops, self, r, hdr, hself, rfl⟩

theorem handleReceived_hist {bytes : List Byte} {s t : State} (h : handleReceived bytes s = .next t) :
    t.hist = s.hist ∨ ∃ sender dest ops desc self r,
      decodeBytes s.cfg bytes = some (.message sender dest opGiveDeviceVendorId ops desc) ∧
      s.ctxSelfLa = some self ∧
      t.hist = s.hist ++ [.transmit (featureAbortRequest self sender opGiveDeviceVendorId 0x00) r] := by
  rcases handleReceived_next h with ⟨_, rfl⟩ | ⟨dr, hdec, hdisp⟩
  · exact .inl rfl
  · refine (dispatchResult_hist hdisp).imp_right ?_
    rintro ⟨sender, dest, ops, self, r, hdr, hself, hhist⟩
    obtain ⟨desc, rfl⟩ := carried_eq_message.mp hdr
    exact ⟨sender, dest, ops, desc, self, r, hdec, hself, hhist⟩

/-- The events are the one automatic reply of R196: a feature abort from CTX_SELF_LA to the sender of a decoded
0x8C, after the Receive event of its bytes unless DISPATCH was given the message. -/
def VendorIdReply (i : Instr) (s : State) (new : List TransportEvent) : Prop :=
  ∃ (self sender dest : Nibble) (ops : List Byte) (req : TxRequest) (r : Answer Bool),
    s.ctxSelfLa = some self ∧ req = featureAbortRequest self sender opGiveDeviceVendorId 0x00 ∧
    ((i = .dispatch (some (.message sender dest opGiveDeviceVendorId ops)) ∧ new = [.transmit req r]) ∨
      ∃ (bytes : List Byte) (desc : Description), routes s.cfg i = true ∧
        decodeBytes s.cfg bytes = some (.message sender dest opGiveDeviceVendorId ops desc) ∧
        new = [.receive (.ok bytes), .transmit req r])

/-- What a routing instruction appends to HIST: no Transmit, or the one automatic reply. -/
def RoutingAppends (i : Instr) (s t : State) : Prop :=
  ∃ new, t.hist = s.hist ++ new ∧ (new.filter isTransmit = [] ∨ VendorIdReply i s new)

/-- Bytes handled in the state `u` their Receive event leaves. -/
theorem handleReceived_routingAppends {i : Instr} {bytes : List Byte} {s u t : State}
    (h : handleReceived bytes u = .next t) (hi : routes s.cfg i = true) (hcfg : u.cfg = s.cfg)
    (hself : u.ctxSelfLa = s.ctxSelfLa) (hhist : u.hist = s.hist ++ [.receive (.ok bytes)]) :
    RoutingAppends i s t := by
  rcases handleReceived_hist h with ht | ⟨sender, dest, ops, desc, self, r, hdec, hu, ht⟩
  · exact ⟨[.receive (.ok bytes)], ht.trans hhist, .inl rfl⟩
  · rw [hhist, List.append_assoc] at ht
    exact ⟨_, ht, .inr ⟨self, sender, dest, ops, _, r, hself ▸ hu, rfl, .inr ⟨bytes, desc, hi, hcfg ▸ hdec, rfl⟩⟩⟩

/-- A routing instruction is DISPATCH, HANDLE_ONE, or received bytes (log 9). -/
theorem routes_cases {i : Instr} {s : State} (hi : routes s.cfg i = true) :
    (∃ dres, i = .dispatch dres) ∨ i = .handleOne ∨ ∃ bytes, exec i s = receiveFrame bytes s := by
  unfold routes at hi
  split at hi
  · exact .inl ⟨_, rfl⟩
  · exact .inr (.inl rfl)
  · exact .inr (.inr ⟨_, rfl⟩)
  · obtain ⟨_, hfields⟩ := Option.isSome_iff_exists.mp hi
    exact .inr (.inr ⟨_, exec_of_messageFields hfields⟩)

theorem exec_dispatch_routingAppends {dres : Option CarriedResult} {s t : State} (hs : s.fault = none)
    (h : exec (.dispatch dres) s = .next t) : RoutingAppends (.dispatch dres) s t := by
  simp only [exec, execDispatch, serve_of_healthy hs] at h
  rcases withArgument_next h with ⟨_, rfl⟩ | ⟨dr, hdr, hdisp⟩
  · exact ⟨[], (List.append_nil _).symm, .inl rfl⟩
  obtain ⟨rfl, _⟩ := argumentIf_eq_some.mp hdr
  rcases dispatchResult_hist hdisp with ht | ⟨sender, dest, ops, self, r, rfl, hself, ht⟩
  · exact ⟨[], ht.trans (List.append_nil _).symm, .inl rfl⟩
  · exact ⟨_, ht, .inr ⟨self, sender, dest, ops, _, r, hself, rfl, .inl ⟨rfl, rfl⟩⟩⟩

theorem exec_handleOne_routingAppends {s t : State} (hs : s.fault = none) (h : exec .handleOne s = .next t) :
    RoutingAppends .handleOne s t := by
  simp only [exec, execHandleOne, serve_of_healthy hs] at h
  obtain ⟨r, _, h⟩ := onDraw_next h
  cases r with
  | err e =>
    cases h
    exact ⟨[.receive (.err e)], rfl, .inl rfl⟩
  | ok bytes => exact handleReceived_routingAppends h rfl rfl rfl rfl

theorem exec_routingAppends {i : Instr} {s t : State} (hi : routes s.cfg i = true) (hs : s.fault = none)
    (h : exec i s = .next t) : RoutingAppends i s t := by
  rcases routes_cases hi with ⟨dres, rfl⟩ | rfl | ⟨bytes, hbytes⟩
  · exact exec_dispatch_routingAppends hs h
  · exact exec_handleOne_routingAppends hs h
  · rw [hbytes, receiveFrame, serve_of_healthy hs] at h
    exact handleReceived_routingAppends h hi rfl rfl rfl

/-- Of the other instructions only a TRANSMIT that does not fault transmits, once and what it was given (R190). -/
theorem Served.hist_cases {i : Instr} {s t : State} (h : Served i s t) :
    (∃ req r, i = .transmit (some req) ∧ t.hist = s.hist ++ [.transmit req r]) ∨
    ((∀ req, i = .transmit (some req) → t.fault ≠ none) ∧
      ∃ new, t.hist = s.hist ++ new ∧ new.filter isTransmit = []) := by
  rcases h with ⟨hpure, _, rfl⟩ | ⟨_, rfl⟩ | ⟨req, r, rfl, _, rfl⟩ | ⟨_, rfl, rfl⟩ | ⟨_, _, rfl, rfl⟩ | ⟨_, rfl, rfl⟩
  · exact .inr ⟨(by rintro _ rfl; cases hpure), [], (List.append_nil _).symm, rfl⟩
  · exact .inr ⟨nofun, [], (List.append_nil _).symm, rfl⟩
  · exact .inl ⟨req, r, rfl, rfl⟩
  · exact .inr ⟨nofun, _, rfl, rfl⟩
  · exact .inr ⟨nofun, _, rfl, rfl⟩
  · exact .inr ⟨nofun, _, rfl, rfl⟩

/-! ## The obligations -/

/-- Settles O52, by the three things an instruction can do (`exec_next`): be refused, serve its own request, or
route. -/
theorem atMostOneTransmit : Obligations.AtMostOneTransmit := by
  intro i s t h
  rcases exec_next h with ⟨c, hc, rfl⟩ | ⟨hs, hserved | ⟨hroutes, _⟩⟩
  · exact ⟨[], (List.append_nil _).symm, fun _ _ hclear => absurd (hc.symm.trans hclear) nofun, .inl rfl⟩
  · rcases hserved.hist_cases with ⟨req, r, rfl, ht⟩ | ⟨hfault, new, ht, hnone⟩
    · exact ⟨_, ht, fun _ hreq _ => by cases hreq; exact ⟨r, rfl⟩, .inr (.inl ⟨req, r, rfl, rfl⟩)⟩
    · exact ⟨new, ht, fun req hi hclear => absurd hclear (hfault req hi), .inl hnone⟩
  · obtain ⟨new, ht, happended⟩ := exec_routingAppends hroutes hs h
    exact ⟨new, ht, (by rintro _ rfl; cases hroutes), happended.imp_right .inr⟩

end Sys2Proof.Machine

/-! Transport errors and the routing's status (spec/60_exceptions.md R244, R246; spec/43_dispatch.md R190 to R202): a
request that makes a call relays its answer, and a routing ends in a disposition or in its reply's error. -/

namespace Sys2Proof.Machine

/-! ## The calling requests by the answer of their call -/

theorem exec_register_of_err {la : Nibble} {s : State} {e : TransportErr} (hs : s.fault = none)
    (hd : drawRegister s la = .answered (.err e)) :
    exec (.register la) s = .next (respond (.transportError e) (afterRegister la (.err e) s)) := by
  simp only [exec, execRegister, serve_of_healthy hs, callRegister, hd, onDraw_answered]

theorem exec_getPhysAddr_of_answered {s : State} {r : Answer PhysAddr} (hs : s.fault = none)
    (hd : drawPhysAddr s = .answered r) :
    exec .getPhysAddr s = .next (respond (relay .physAddr r) (afterPhysAddr r s)) := by
  simp only [exec, execGetPhysAddr, serve_of_healthy hs, callPhysAddr, hd, onDraw_answered]

/-- TRANSMIT makes its one call with a request a bundle can carry (R190, R79). -/
theorem exec_transmit_of_wellFormed {req : TxRequest} {s : State} (hs : s.fault = none)
    (hwf : req.wellFormed = true) : exec (.transmit (some req)) s = transmitOnce req .transmitted s := by
  simp only [exec, execTransmit, serve_of_healthy hs, argumentIf_of_ok hwf, withArgument]

/-- Received bytes of an accepted GIVE_DEVICE_VENDOR_ID go to its reply (R196, R200). -/
theorem handleReceived_of_vendorId {bytes : List Byte} {s : State} {i d : Nibble} {ops : List Byte}
    {desc : Description} (h : decodeBytes s.cfg bytes = some (.message i d opGiveDeviceVendorId ops desc)) :
    handleReceived bytes s = vendorIdRequested i s := by
  rw [handleReceived, h]
  rfl

/-! ## The status of a routing's response -/

theorem statusCode_relay {α : Type} {k : α → Response} (hk : ∀ a, statusCode (k a) = 0) (x : Answer α) :
    statusCode (relay k x) = 0 ∨ statusCode (relay k x) = 5 := by
  cases x with
  | ok a => exact .inl (hk a)
  | err e => exact .inr rfl

theorem Routed.statusCode_eq {u t : State} {r : Response} (h : Routed u t) (hr : t.response = some r) :
    statusCode r = 0 ∨ statusCode r = 5 := by
  rcases h with ⟨d, rfl⟩ | ⟨c, rfl⟩ | ⟨self, sender, x, _, rfl⟩
  · cases hr
    exact .inl rfl
  · cases hr
  · cases hr
    exact statusCode_relay (fun _ => rfl) x

theorem RoutedFrom.statusCode_eq {s t : State} {r : Response} (h : RoutedFrom s t) (hr : t.response = some r) :
    statusCode r = 0 ∨ statusCode r = 5 := by
  rcases h with h | ⟨e, rfl⟩ | ⟨_, h⟩ | ⟨_, h⟩
  · exact h.statusCode_eq hr
  · cases hr
    exact .inr rfl
  · exact h.statusCode_eq hr
  · exact h.statusCode_eq hr

theorem routes_of_isPure {i : Instr} (h : isPure i = true) (cfg : Config) : routes cfg i = false := by
  cases i with
  | classify | describe | decode | buildPing | buildSimple | buildFeatureAbort | buildActiveSource => rfl
  | _ => cases h

/-- A routing instruction serves no request of its own: without a routing it can only fault. -/
theorem Served.response_of_routes {i : Instr} {s t : State} (h : Served i s t) (hi : routes s.cfg i = true) :
    t.response = none := by
  rcases h with ⟨hpure, _⟩ | ⟨_, rfl⟩ | ⟨_, _, rfl, _⟩ | ⟨_, rfl, _⟩ | ⟨_, _, rfl, _⟩ | ⟨_, rfl, _⟩
  · exact absurd (hi.symm.trans (routes_of_isPure hpure s.cfg)) nofun
  · rfl
  all_goals cases hi

/-! ## The obligations -/

/-- Settles O35: what a routing can leave has a disposition's response, its call's error, or none. -/
theorem decodeErrorsStayInsideDispatch : Obligations.DecodeErrorsStayInsideDispatch := by
  intro i s t r hi h hr
  rcases exec_next h with ⟨_, _, rfl⟩ | ⟨_, hserved | ⟨_, hrouted⟩⟩
  · cases hr
  · cases (hserved.response_of_routes hi).symm.trans hr
  · exact hrouted.statusCode_eq hr

/-- Settles O26: each request relays the answer of its call, and the reply of DISPATCH and HANDLE_ONE is one call to
which nothing but the Receive event of HANDLE_ONE comes first. -/
theorem transportErrorsAreRelayed : Obligations.TransportErrorsAreRelayed := by
  intro s e hs
  refine ⟨fun la => exec_register_of_err hs, exec_getPhysAddr_of_answered hs, exec_handleOne_of_err hs, ?transmit,
    ?handleOneReply⟩
  case transmit =>
    intro req hwf hd
    refine ⟨_, rfl, ?_, ?_⟩
    · rw [exec_transmit_of_wellFormed hs hwf, transmitOnce_of_answered hd]
      rfl
    · rintro self sender dest ops hself hfit rfl
      rw [exec_dispatch_message_of_healthy sender dest _ hs hfit]
      exact vendorIdRequested_of_answered hself hd
  case handleOneReply =>
    rintro bytes self sender dest ops desc u _ hrecv hdec hself hu rfl hd
    obtain rfl : u = afterReceive (.ok bytes) s := hu
    rw [exec_handleOne_of_ok hs hrecv, handleReceived_of_vendorId (s := afterReceive _ s) hdec]
    exact vendorIdRequested_of_answered (s := afterReceive _ s) hself hd

end Sys2Proof.Machine

/-! Which outcomes are possible (spec/60_exceptions.md R246, R264): an instruction answers a next state where its calls
are answered and hangs where one is not, and there is no third outcome. -/

namespace Sys2Proof.Machine

/-- The result is a next state where the condition holds, and a hang where it fails. -/
def AnswersExactlyIf (p : Prop) (res : Result) : Prop :=
  (p → ∃ t, res = .next t) ∧ (¬ p → ∃ call, res = .fault (.hang call))

theorem AnswersExactlyIf.of_next {p : Prop} {res : Result} (hp : p) (h : ∃ t, res = .next t) :
    AnswersExactlyIf p res := ⟨fun _ => h, fun hn => absurd hp hn⟩

theorem AnswersExactlyIf.congr {p q : Prop} {res : Result} (hpq : p ↔ q) (h : AnswersExactlyIf p res) :
    AnswersExactlyIf q res := propext hpq ▸ h

theorem AnswersExactlyIf.next_iff {p : Prop} {res : Result} (h : AnswersExactlyIf p res) :
    (∃ t, res = .next t) ↔ p := by
  refine ⟨fun ⟨t, ht⟩ => by_contra fun hn => ?_, h.1⟩
  obtain ⟨call, hcall⟩ := h.2 hn
  cases ht.symm.trans hcall

theorem AnswersExactlyIf.ne_refused {p : Prop} {res : Result} (h : AnswersExactlyIf p res) (r : Refusal) :
    res ≠ .refused r := by
  rintro rfl
  by_cases hp : p
  · obtain ⟨_, ht⟩ := h.1 hp
    cases ht
  · obtain ⟨_, hc⟩ := h.2 hp
    cases hc

/-! ## The shared operations -/

theorem onDraw_answersExactlyIf {α : Type} {call : Call} {d : Draw α} {k : Answer α → Result}
    (hk : ∀ r, ∃ t, k r = .next t) : AnswersExactlyIf (d ≠ .never) (onDraw call d k) := by
  cases d with
  | answered r => exact .of_next nofun (hk r)
  | never => exact ⟨fun h => absurd rfl h, fun _ => ⟨call, rfl⟩⟩

theorem transmitOnce_answersExactlyIf {req : TxRequest} {k : Bool → Response} {s : State} :
    AnswersExactlyIf (drawTransmit s req ≠ .never) (transmitOnce req k s) :=
  onDraw_answersExactlyIf fun _ => ⟨_, rfl⟩

/-- A malformed argument faults with no call (R79), so only what the body does with a well-formed one counts. -/
theorem withArgument_answersExactlyIf {α : Type} {ok : α → Bool} {arg : Option α} {body : α → State → Result}
    {s : State} {p : α → Prop} (h : ∀ a, AnswersExactlyIf (p a) (body a s)) :
    AnswersExactlyIf (∀ a, arg = some a → ok a = true → p a) (withArgument (argumentIf ok arg) body s) := by
  cases harg : argumentIf ok arg with
  | none =>
    refine .of_next (fun a ha hok => ?_) ⟨_, rfl⟩
    cases harg.symm.trans (argumentIf_eq_some.mpr ⟨ha, hok⟩)
  | some a =>
    obtain ⟨rfl, hok⟩ := argumentIf_eq_some.mp harg
    refine (h a).congr ⟨fun hp b hb _ => ?_, fun hp => hp a rfl hok⟩
    cases hb
    exact hp

theorem vendorIdRequested_answersExactlyIf (sender : Nibble) (s : State) :
    AnswersExactlyIf (replyAnswered sender s) (vendorIdRequested sender s) := by
  refine ⟨vendorIdRequested_completes, fun h => ⟨.transmit, ?_⟩⟩
  simp only [replyAnswered, not_forall, not_not] at h
  obtain ⟨self, hself, hd⟩ := h
  simp only [vendorIdRequested, hself]
  exact transmitOnce_of_never hd

theorem dispatchResult_answersExactlyIf (dr : CarriedResult) (s : State) :
    AnswersExactlyIf (∀ i d ops, dr = .message i d opGiveDeviceVendorId ops → replyAnswered i s)
      (dispatchResult dr s) := by
  refine ⟨dispatchResult_completes, fun h => ?_⟩
  simp only [not_forall] at h
  obtain ⟨i, d, ops, rfl, hreply⟩ := h
  exact (vendorIdRequested_answersExactlyIf i s).2 hreply

theorem handleReceived_answersExactlyIf (bytes : List Byte) (s : State) :
    AnswersExactlyIf (bytesAnswered bytes s) (handleReceived bytes s) := by
  refine ⟨handleReceived_completes, fun h => ?_⟩
  simp only [bytesAnswered, not_forall] at h
  obtain ⟨i, d, ops, desc, hdec, hreply⟩ := h
  rw [handleReceived_of_vendorId hdec]
  exact (vendorIdRequested_answersExactlyIf i s).2 hreply

/-! ## The instructions with FAULT clear -/

theorem receiveFrame_answersExactlyIf {s : State} (bytes : List Byte) (hs : s.fault = none) :
    AnswersExactlyIf (bytesAnswered bytes (afterDelivery bytes s)) (receiveFrame bytes s) := by
  rw [receiveFrame, serve_of_healthy hs]
  exact handleReceived_answersExactlyIf bytes _

theorem exec_handleOne_answersExactlyIf {s : State} (hs : s.fault = none) :
    AnswersExactlyIf (callsAnswered .handleOne s) (exec .handleOne s) := by
  refine ⟨exec_handleOne_completes hs, fun h => ?_⟩
  cases hd : drawReceive s with
  | never =>
    refine ⟨.receive, ?_⟩
    simp only [exec, execHandleOne, serve_of_healthy hs, callReceive, hd, onDraw_never]
  | answered r =>
    cases r with
    | err e => exact absurd ⟨by simp [hd], by simp [hd]⟩ h
    | ok bytes =>
      rw [exec_handleOne_of_ok hs hd]
      refine (handleReceived_answersExactlyIf bytes _).2 fun hbytes => h ⟨by simp [hd], fun bytes' hd' => ?_⟩
      cases hd.symm.trans hd'
      exact hbytes

theorem exec_dispatch_answersExactlyIf {s : State} (dres : Option CarriedResult) (hs : s.fault = none) :
    AnswersExactlyIf (callsAnswered (.dispatch dres) s) (exec (.dispatch dres) s) := by
  simp only [exec, execDispatch, serve_of_healthy hs]
  refine (withArgument_answersExactlyIf fun dr => dispatchResult_answersExactlyIf dr s).congr ⟨?_, ?_⟩
  · exact fun h i d ops hmsg hfit => h _ hmsg (decide_eq_true hfit) i d ops rfl
  · rintro h _ hmsg hwf i d ops rfl
    exact h i d ops hmsg (of_decide_eq_true hwf)

theorem exec_transmit_answersExactlyIf {s : State} (req : Option TxRequest) (hs : s.fault = none) :
    AnswersExactlyIf (callsAnswered (.transmit req) s) (exec (.transmit req) s) := by
  simp only [exec, execTransmit, serve_of_healthy hs]
  exact withArgument_answersExactlyIf fun _ => transmitOnce_answersExactlyIf

theorem exec_register_answersExactlyIf {s : State} (la : Nibble) (hs : s.fault = none) :
    AnswersExactlyIf (callsAnswered (.register la) s) (exec (.register la) s) := by
  simp only [exec, execRegister, serve_of_healthy hs]
  exact onDraw_answersExactlyIf fun r => by cases r <;> exact ⟨_, rfl⟩

theorem exec_getPhysAddr_answersExactlyIf {s : State} (hs : s.fault = none) :
    AnswersExactlyIf (callsAnswered .getPhysAddr s) (exec .getPhysAddr s) := by
  simp only [exec, execGetPhysAddr, serve_of_healthy hs]
  exact onDraw_answersExactlyIf fun _ => ⟨_, rfl⟩

/-- A MSG frame instruction makes the calls its received bytes lead to (log 9). -/
theorem exec_frame_answersExactlyIf {ins : Instr} {s : State} {i d : Nibble} {op : Byte} {ops : List Byte}
    (hfields : messageFields s.cfg ins = some (i, d, op, ops)) (hs : s.fault = none) :
    AnswersExactlyIf (∀ i d op ops, messageFields s.cfg ins = some (i, d, op, ops) →
      bytesAnswered (header i d :: op :: ops) (afterDelivery (header i d :: op :: ops) s)) (exec ins s) := by
  rw [exec_of_messageFields hfields]
  refine (receiveFrame_answersExactlyIf _ hs).congr ⟨fun hbytes _ _ _ _ h => ?_, fun h => h i d op ops hfields⟩
  cases hfields.symm.trans h
  exact hbytes

theorem exec_completes_of_isPure {i : Instr} {s : State} (hi : isPure i = true) (hs : s.fault = none) :
    ∃ t, exec i s = .next t := by
  rcases exec_of_isPure hi s.cfg with ⟨r, hr⟩ | ⟨c, hc⟩
  · exact ⟨_, hr s hs rfl⟩
  · exact ⟨_, hc s hs rfl⟩

theorem illegalCommand_completes {s : State} (hs : s.fault = none) : ∃ t, illegalCommand s = .next t :=
  ⟨_, serve_of_healthy hs⟩

/-- Only the five calling requests and the frames can make a call; a poll makes none. -/
theorem exec_answersExactlyIf {i : Instr} {s : State} (hs : s.fault = none) :
    AnswersExactlyIf (callsAnswered i s) (exec i s) := by
  cases i with
  | classify | describe | decode | buildPing | buildSimple | buildFeatureAbort | buildActiveSource =>
    exact .of_next nofun (exec_completes_of_isPure rfl hs)
  | transmit req => exact exec_transmit_answersExactlyIf req hs
  | dispatch dres => exact exec_dispatch_answersExactlyIf dres hs
  | handleOne => exact exec_handleOne_answersExactlyIf hs
  | register la => exact exec_register_answersExactlyIf la hs
  | getPhysAddr => exact exec_getPhysAddr_answersExactlyIf hs
  | reservedCmd0 | reservedCmdD | reservedCmdE | reservedCmdF =>
    exact .of_next nofun (illegalCommand_completes hs)
  | framePoll i d => exact .of_next nofun ((receiveFrame_answersExactlyIf [header i d] hs).1 nofun)
  | frameFeatureAbort | frameGiveDeviceVendorId | frameGetMenuLanguage | frameActiveSource | frameDeviceVendorId
  | frameVendorCommand | frameGiveDevicePowerStatus | frameMsgOther => exact exec_frame_answersExactlyIf rfl hs

/-! ## The obligation -/

/-- Settles O58: with FAULT set every instruction is refused by a step, and with FAULT clear its calls decide between a
next state and a hang. -/
theorem everyInstructionCompletes : Obligations.EveryInstructionCompletes := by
  intro i s
  have h : AnswersExactlyIf (s.fault = none → callsAnswered i s) (exec i s) := by
    cases hf : s.fault with
    | none => exact (exec_answersExactlyIf hf).congr (forall_prop_of_true rfl).symm
    | some c =>
      obtain ⟨body, hbody⟩ := exec_serves i s
      exact .of_next nofun ⟨_, hbody.trans (serve_of_faulted hf)⟩
  exact ⟨h.next_iff, h.ne_refused⟩

end Sys2Proof.Machine

/-! Invariants of CTX_SELF_LA and HIST (spec/10_state.md R23, R24; spec/42_builder.md R160): what the transport's
calls keep, every step keeps, since nothing else writes these two fields but a reset. -/

namespace Sys2Proof.Machine

/-! ## Invariants kept by the calls are kept by every step -/

/-- A property of CTX_SELF_LA and HIST that holds after reset and that the events the codec can append keep. -/
structure KeptByCalls (P : Option Nibble → List TransportEvent → Prop) : Prop where
  reset : P none []
  accepted : ∀ {self hist} la, P self hist → P (some la) (hist ++ [.register la (.ok ())])
  notAccepted : ∀ {self hist} la e, P self hist → P self (hist ++ [.register la (.err e)])
  physAddr : ∀ {self hist} r, P self hist → P self (hist ++ [.getPhysAddr r])
  receive : ∀ {self hist} r, P self hist → P self (hist ++ [.receive r])
  transmit : ∀ {self hist} req r, req.wellFormed = true → P self hist → P self (hist ++ [.transmit req r])

section
variable {P : Option Nibble → List TransportEvent → Prop} (hP : KeptByCalls P)
include hP

theorem Routed.keeps {u t : State} (h : Routed u t) (hu : P u.ctxSelfLa u.hist) : P t.ctxSelfLa t.hist := by
  rcases h with ⟨_, rfl⟩ | ⟨_, rfl⟩ | ⟨self, sender, r, _, rfl⟩
  · exact hu
  · exact hu
  · exact hP.transmit _ r rfl hu

theorem RoutedFrom.keeps {s t : State} (h : RoutedFrom s t) (hs : P s.ctxSelfLa s.hist) :
    P t.ctxSelfLa t.hist := by
  rcases h with h | ⟨e, rfl⟩ | ⟨_, h⟩ | ⟨_, h⟩
  · exact h.keeps hP hs
  · exact hP.receive (.err e) hs
  · exact h.keeps hP (hP.receive _ hs)
  · exact h.keeps hP (hP.receive _ hs)

theorem Served.keeps {i : Instr} {s t : State} (h : Served i s t) (hs : P s.ctxSelfLa s.hist) :
    P t.ctxSelfLa t.hist := by
  rcases h with ⟨_, _, rfl⟩ | ⟨_, rfl⟩ | ⟨req, r, _, hwf, rfl⟩ | ⟨la, _, rfl⟩ | ⟨la, e, _, rfl⟩ | ⟨r, _, rfl⟩
  · exact hs
  · exact hs
  · exact hP.transmit req r hwf hs
  · exact hP.accepted la hs
  · exact hP.notAccepted la e hs
  · exact hP.physAddr r hs

theorem exec_keeps {i : Instr} {s t : State} (h : exec i s = .next t) (hs : P s.ctxSelfLa s.hist) :
    P t.ctxSelfLa t.hist := by
  rcases exec_next h with ⟨_, _, rfl⟩ | ⟨_, h | ⟨_, h⟩⟩
  · exact hs
  · exact h.keeps hP hs
  · exact h.keeps hP hs

theorem receiveFrame_keeps {bytes : List Byte} {s t : State} (h : receiveFrame bytes s = .next t)
    (hs : P s.ctxSelfLa s.hist) : P t.ctxSelfLa t.hist := by
  rcases receiveFrame_next h with ⟨_, _, rfl⟩ | ⟨_, h⟩
  · exact hs
  · exact h.keeps hP (hP.receive _ hs)

theorem step_keeps {s t : State} (h : step s = .next t) (hs : P s.ctxSelfLa s.hist) : P t.ctxSelfLa t.hist := by
  rcases step_next h with ⟨_, rfl⟩ | ⟨_, _, rfl⟩ | ⟨w, rest, _, h⟩
  · exact hs
  · exact hP.reset
  · rcases stepItem_next h with ⟨_, _, h⟩ | ⟨_, _, h⟩
    · exact exec_keeps (s := { s with inbox := rest }) hP h hs
    · exact receiveFrame_keeps (s := { s with inbox := rest }) hP h hs

end

/-! ## The two invariants of the model -/

theorem selfAfter_eq_lastRegistered {self : Option Nibble} {hist : List TransportEvent} (e : TransportEvent)
    (h : self = lastRegistered hist) : selfAfter self e = lastRegistered (hist ++ [e]) := by
  rw [h, lastRegistered, lastRegistered, List.foldl_concat]

theorem selfIsLastRegistration_keptByCalls :
    KeptByCalls fun self hist => self = lastRegistered hist where
  reset := rfl
  accepted la := selfAfter_eq_lastRegistered (.register la (.ok ()))
  notAccepted la e := selfAfter_eq_lastRegistered (.register la (.err e))
  physAddr r := selfAfter_eq_lastRegistered (.getPhysAddr r)
  receive r := selfAfter_eq_lastRegistered (.receive r)
  transmit req r _ := selfAfter_eq_lastRegistered (.transmit req r)

theorem transmitsWellFormed_append {hist : List TransportEvent} {e : TransportEvent}
    (h : transmitsWellFormed hist) (he : ∀ req r, e = .transmit req r → req.wellFormed = true) :
    transmitsWellFormed (hist ++ [e]) := fun req r hmem =>
  (List.mem_append.mp hmem).elim (h req r) fun hlast => he req r (List.mem_singleton.mp hlast).symm

theorem transmitsWellFormed_keptByCalls : KeptByCalls fun _ hist => transmitsWellFormed hist where
  reset := nofun
  accepted _ h := transmitsWellFormed_append h nofun
  notAccepted _ _ h := transmitsWellFormed_append h nofun
  physAddr _ h := transmitsWellFormed_append h nofun
  receive _ h := transmitsWellFormed_append h nofun
  transmit req r hwf h := transmitsWellFormed_append h fun _ _ he => by
    cases he
    exact hwf

/-! ## The obligations -/

/-- Settles O53: of the calls only an accepted registration changes the last one, and it writes CTX_SELF_LA too. -/
theorem selfIsLastRegistrationKept : Obligations.SelfIsLastRegistrationKept :=
  fun _ _ hs h => step_keeps selfIsLastRegistration_keptByCalls h hs

/-- Settles O54: every request a call transmits is well formed, TRANSMIT's by its check and the reply by its form. -/
theorem sentRequestsStayWellFormed : Obligations.SentRequestsStayWellFormed :=
  fun _ _ hs h => step_keeps transmitsWellFormed_keptByCalls h hs

/-- Settles O48: the invariants hold where CTX_SELF_LA is unwritten and HIST empty. -/
theorem resetValues : Obligations.ResetValues :=
  ⟨fun _ => ⟨rfl, rfl, rfl, rfl, selfIsLastRegistration_keptByCalls.reset,
    transmitsWellFormed_keptByCalls.reset⟩, rfl⟩

/-- Settles O51: the events of an instruction (O52) follow those of HIST. -/
theorem historyOnlyGrows : Obligations.HistoryOnlyGrows := fun i s t h =>
  let ⟨new, ht, _⟩ := atMostOneTransmit i s t h
  ⟨new, ht⟩

end Sys2Proof.Machine

/-! Encoding and decoding (spec/30_encoding.md R60 to R71): each field of an instruction is read back from its
encoding, and each frame is the encoding of what it decodes to. -/

namespace Sys2Proof.Machine

/-! ## The argument bundles -/

theorem operandsFit_eq_true {ops : List Byte} : operandsFit ops = true ↔ ops.length ≤ 14 := decide_eq_true_iff

theorem toNat_ofNat_length {ops : List Byte} (h : operandsFit ops = true) :
    (BitVec.ofNat 4 ops.length).toNat = ops.length := by
  rw [operandsFit_eq_true] at h
  rw [BitVec.toNat_ofNat, Nat.mod_eq_of_lt (by omega)]

/-- The operand lanes below oplen are the operands (R70, R71). -/
theorem padTo_toList_take_oplen {ops : List Byte} (h : operandsFit ops = true) :
    (padTo 14 ops).toList.take (BitVec.ofNat 4 ops.length).toNat = ops :=
  padTo_toList_take 14 _ ops (operandsFit_eq_true.mp h) (toNat_ofNat_length h)

/-- An operand count that fits is never the malformed oplen 15. -/
theorem oplen_ne_fifteen {ops : List Byte} (h : operandsFit ops = true) : BitVec.ofNat 4 ops.length ≠ 15 := by
  intro h15
  have hlen := toNat_ofNat_length h
  rw [operandsFit_eq_true] at h
  rw [h15] at hlen
  exact absurd (hlen.symm ▸ h) (by decide)

theorem decodeTxBundle_encodeTxRequest {req : TxRequest} (h : req.wellFormed = true) :
    decodeTxBundle (encodeTxRequest req) = some req := by
  obtain ⟨hfit, hop⟩ := (Bool.and_eq_true _ _).mp h
  obtain ⟨i, d, op, ops, retry⟩ := req
  cases op with
  | none =>
    obtain rfl : ops = [] := by simpa using hop
    rfl
  | some op =>
    simp only [decodeTxBundle, encodeTxRequest, oplen_ne_fifteen hfit, padTo_toList_take_oplen hfit,
      Option.isSome_some, Option.getD_some, if_true, if_false]
    rfl

theorem decodeDresBundle_encodeCarried {r : CarriedResult} (h : r.wellFormed = true) :
    decodeDresBundle (encodeCarried r) = some r := by
  cases r with
  | err k => cases k <;> rfl
  | polling i d => rfl
  | message i d op ops =>
    simp only [decodeDresBundle, encodeCarried, oplen_ne_fifteen h, padTo_toList_take_oplen h, if_true, if_false]
    rfl

/-! ## Frames -/

theorem decodeFrame_frameBytes (cfg : Config) (i d : Nibble) (op : Byte) {ops : List Byte}
    (h : operandsFit ops = true) : decodeFrame cfg (frameBytes i d op ops) = .ok (decodeMsg cfg i d op ops) := by
  rw [frameBytes, decodeFrame_msg_eq_ok, hiNibble_header, loNibble_header]
  exact ⟨of_decide_eq_true h, rfl⟩

theorem encode_decodeMsg (cfg : Config) (i d : Nibble) (op : Byte) (ops : List Byte) :
    encode cfg (decodeMsg cfg i d op ops) = .frame (frameBytes i d op ops) := by
  unfold decodeMsg
  split_ifs <;> simp only [encode, *]

/-- The row a frame decodes to is the first with its opcode, so it is well formed (log 10). -/
theorem wellFormed_decodeMsg (cfg : Config) (i d : Nibble) (op : Byte) {ops : List Byte}
    (h : operandsFit ops = true) : (decodeMsg cfg i d op ops).wellFormed cfg = true := by
  unfold decodeMsg
  split_ifs <;> simp_all [Instr.wellFormed]

/-- A well-formed MSG frame instruction is the row its opcode selects (R66; log 10). -/
theorem decodeMsg_of_messageFields {cfg : Config} {ins : Instr} {i d : Nibble} {op : Byte} {ops : List Byte}
    (hwf : ins.wellFormed cfg = true) (h : messageFields cfg ins = some (i, d, op, ops)) :
    decodeMsg cfg i d op ops = ins := by
  cases ins <;> simp only [messageFields, reduceCtorEq, Option.some.injEq, Prod.mk.injEq] at h <;>
    obtain ⟨rfl, rfl, rfl, rfl⟩ := h <;> simp_all [Instr.wellFormed, decodeMsg]

theorem operandsFit_of_messageFields {cfg : Config} {ins : Instr} {i d : Nibble} {op : Byte} {ops : List Byte}
    (hwf : ins.wellFormed cfg = true) (h : messageFields cfg ins = some (i, d, op, ops)) :
    operandsFit ops = true := by
  cases ins <;> simp only [messageFields, reduceCtorEq, Option.some.injEq, Prod.mk.injEq] at h <;>
    obtain ⟨rfl, rfl, rfl, rfl⟩ := h <;> simp_all [Instr.wellFormed]

theorem encode_of_messageFields {cfg : Config} {ins : Instr} {i d : Nibble} {op : Byte} {ops : List Byte}
    (h : messageFields cfg ins = some (i, d, op, ops)) : encode cfg ins = .frame (frameBytes i d op ops) := by
  cases ins <;> simp only [messageFields, reduceCtorEq, Option.some.injEq, Prod.mk.injEq] at h <;>
    (obtain ⟨rfl, rfl, rfl, rfl⟩ := h; rfl)

theorem decodeItem_encode_of_messageFields {cfg : Config} {ins : Instr} {i d : Nibble} {op : Byte}
    {ops : List Byte} (hwf : ins.wellFormed cfg = true) (h : messageFields cfg ins = some (i, d, op, ops)) :
    decodeItem cfg (encode cfg ins) = .ok ins := by
  rw [encode_of_messageFields h]
  exact (decodeFrame_frameBytes cfg i d op (operandsFit_of_messageFields hwf h)).trans
    (congrArg _ (decodeMsg_of_messageFields hwf h))

/-! ## The obligations -/

/-- Settles O3, by the rows: a request's fields are read back as they are written, TRANSMIT's and DISPATCH's by the
round trips of their bundles, and a frame by that of its header and the order of the rows. -/
theorem decodeEncodeRoundTrip : Obligations.DecodeEncodeRoundTrip := by
  intro cfg ins hwf
  cases ins with
  | classify | describe | decode | buildPing | buildSimple | buildFeatureAbort | buildActiveSource => rfl
  | handleOne | register | getPhysAddr | reservedCmd0 | reservedCmdD | reservedCmdE | reservedCmdF => rfl
  | transmit req =>
    cases req with
    | none => rfl
    | some req => exact congrArg (fun r => Except.ok (Instr.transmit r)) (decodeTxBundle_encodeTxRequest hwf)
  | dispatch dres =>
    cases dres with
    | none => rfl
    | some r => exact congrArg (fun r => Except.ok (Instr.dispatch r)) (decodeDresBundle_encodeCarried hwf)
  | framePoll i d =>
    show Except.ok (Instr.framePoll _ _) = _
    rw [hiNibble_header, loNibble_header]
  | frameFeatureAbort | frameGiveDeviceVendorId | frameGetMenuLanguage | frameActiveSource | frameDeviceVendorId
  | frameVendorCommand | frameGiveDevicePowerStatus | frameMsgOther =>
    exact decodeItem_encode_of_messageFields hwf rfl

/-- Settles O4, by the shapes of a frame: the header byte is its two nibbles, and the row of a message is chosen by its
opcode. -/
theorem frameEncodeDecode : Obligations.FrameEncodeDecode := by
  intro cfg bytes ins h
  match bytes with
  | [] => cases h
  | [b0] =>
    cases h
    exact ⟨congrArg (fun b => Item.frame [b]) (header_hiNibble_loNibble b0), rfl⟩
  | b0 :: op :: ops =>
    obtain ⟨hfit, rfl⟩ := decodeFrame_msg_eq_ok.mp h
    refine ⟨?_, wellFormed_decodeMsg cfg _ _ op (decide_eq_true hfit)⟩
    rw [encode_decodeMsg, frameBytes, header_hiNibble_loNibble]

/-- Settles O5: each input is concrete, and the decoders evaluate on it. -/
theorem writtenWordsDecode : Obligations.WrittenWordsDecode :=
  ⟨rfl, rfl, rfl, rfl, rfl, rfl, rfl, rfl⟩

end Sys2Proof.Machine

/-! Request bundles (spec/30_encoding.md R68 to R71): which bundles are malformed, and that the fields a command does
not use have no effect. -/

namespace Sys2Proof.Machine

theorem decodeTxBundle_eq_none (b : TxBundle) :
    decodeTxBundle b = none ↔ b.oplen = 15 ∨ (b.hasOpcode = 0 ∧ b.oplen ≠ 0) := by
  unfold decodeTxBundle
  split_ifs with h15 hop hzero
  · exact iff_of_true rfl (.inl h15)
  · exact iff_of_false nofun fun h => h.elim h15 fun ⟨_, hlen⟩ => hlen hzero
  · exact iff_of_true rfl (.inr ⟨hop, hzero⟩)
  · exact iff_of_false nofun fun h => h.elim h15 fun ⟨hop0, _⟩ => hop hop0

theorem decodeErrorOfCode_eq_none (status : Nibble) :
    decodeErrorOfCode status = none ↔ status = 0 ∨ 4 < status.toNat := by
  revert status
  decide

theorem decodeDresBundle_eq_none (b : DresBundle) :
    decodeDresBundle b = none ↔ 4 < b.status.toNat ∨ (b.status = 0 ∧ b.kind = 1 ∧ b.oplen = 15) := by
  unfold decodeDresBundle
  split_ifs with hstatus hkind h15
  · simp [hstatus, hkind]
  · exact iff_of_true rfl (.inr ⟨hstatus, by bv_omega, h15⟩)
  · exact iff_of_false nofun fun h => h.elim (by bv_omega) fun ⟨_, _, hlen⟩ => h15 hlen
  · rw [Option.map_eq_none_iff, decodeErrorOfCode_eq_none]
    exact ⟨fun h => .inl (h.resolve_left hstatus), fun h => .inr (h.resolve_right fun ⟨hs, _⟩ => hstatus hs)⟩

/-- At most `oplen` lanes are read, and an oplen other than 15 is at most 14 (R70, R71). -/
theorem operandsFit_take_oplen {oplen : Nibble} (lanes : Vector Byte 14) (h : oplen ≠ 15) :
    operandsFit (lanes.toList.take oplen.toNat) = true := by
  rw [operandsFit_eq_true, List.length_take]
  bv_omega

theorem wellFormed_of_decodeTxBundle {b : TxBundle} {req : TxRequest} (h : decodeTxBundle b = some req) :
    req.wellFormed = true := by
  unfold decodeTxBundle at h
  split_ifs at h with h15 hop hzero
  · cases h
    rfl
  · cases h
    simp [TxRequest.wellFormed, operandsFit_take_oplen b.operands h15]

theorem wellFormed_of_decodeDresBundle {b : DresBundle} {r : CarriedResult} (h : decodeDresBundle b = some r) :
    r.wellFormed = true := by
  unfold decodeDresBundle at h
  split_ifs at h with hstatus hkind h15
  · cases h
    rfl
  · cases h
    exact operandsFit_take_oplen b.operands h15
  · obtain ⟨k, _, rfl⟩ := Option.map_eq_some_iff.mp h
    rfl

/-- Settles O7, by the branches of the two bundle decoders. -/
theorem malformedBundlesExactly : Obligations.MalformedBundlesExactly :=
  ⟨decodeTxBundle_eq_none, decodeDresBundle_eq_none, fun _ _ => wellFormed_of_decodeTxBundle,
    fun _ _ => wellFormed_of_decodeDresBundle⟩

/-! ## Fields without effect -/

theorem decodeTxBundle_congr {a b : TxBundle} (h : sameTxFields a b) : decodeTxBundle a = decodeTxBundle b := by
  obtain ⟨hinit, hdest, hhas, hlen, hretry, hop, hops⟩ := h
  unfold decodeTxBundle
  rw [← hinit, ← hdest, ← hhas, ← hretry, ← hops, ← hlen]
  by_cases hzero : a.hasOpcode = 0
  · simp only [hzero, if_true]
  · have hone : a.hasOpcode = 1 := by bv_omega
    rw [hop hone]

theorem decodeDresBundle_congr {a b : DresBundle} (h : sameDresFields a b) :
    decodeDresBundle a = decodeDresBundle b := by
  obtain ⟨hstatus, hok⟩ := h
  unfold decodeDresBundle
  rw [← hstatus]
  by_cases hs : a.status = 0
  · obtain ⟨hkind, hinit, hdest, hmsg⟩ := hok hs
    rw [← hkind, ← hinit, ← hdest]
    by_cases hk : a.kind = 0
    · simp only [hs, hk, if_true]
    · have hone : a.kind = 1 := by bv_omega
      obtain ⟨hop, hlen, hops⟩ := hmsg hone
      rw [← hops, ← hop, ← hlen]
  · simp only [hs, if_false]

theorem frameArgument_congr {flen : FrameLen} {fb fb' : Vector Byte 16}
    (h : fb.toList.take flen.toNat = fb'.toList.take flen.toNat) : frameArgument flen fb = frameArgument flen fb' := by
  rw [frameArgument, frameArgument, h]

theorem exec_decode_congr {flen : FrameLen} {fb fb' : Vector Byte 16} (s : State)
    (h : fb.toList.take flen.toNat = fb'.toList.take flen.toNat) :
    exec (.decode flen fb) s = exec (.decode flen fb') s := by
  simp only [exec, execDecode, frameArgument_congr h]

/-- Settles O6, by the command: all but DECODE decode to the same instruction, and DECODE reads only the first `flen`
of its bytes. -/
theorem unusedFieldsHaveNoEffect : Obligations.UnusedFieldsHaveNoEffect := by
  intro a b s h
  obtain ⟨hcmd, hop, hinit, hdest, habort, hpa, hla, hframe, htx, hdres⟩ := h
  unfold decodeRequest
  rw [← hcmd]
  split
  case h_2 hc => rw [hop (.inl (BitVec.eq_of_toNat_eq hc))]
  case h_3 hc => rw [hop (.inr (.inl (BitVec.eq_of_toNat_eq hc)))]
  case h_4 hc =>
    obtain ⟨hlen, hbytes⟩ := hframe (BitVec.eq_of_toNat_eq hc)
    rw [← hlen] at hbytes ⊢
    exact exec_decode_congr s hbytes
  case h_5 hc =>
    have hc : a.cmd = 0x4 := BitVec.eq_of_toNat_eq hc
    rw [hinit (.inl hc), hdest (.inl hc)]
  case h_6 hc =>
    have hc : a.cmd = 0x5 := BitVec.eq_of_toNat_eq hc
    rw [hinit (.inr (.inl hc)), hdest (.inr (.inl hc)), hop (.inr (.inr hc))]
  case h_7 hc =>
    have hc : a.cmd = 0x6 := BitVec.eq_of_toNat_eq hc
    obtain ⟨haop, hreason⟩ := habort hc
    rw [hinit (.inr (.inr (.inl hc))), hdest (.inr (.inr hc)), haop, hreason]
  case h_8 hc =>
    have hc : a.cmd = 0x7 := BitVec.eq_of_toNat_eq hc
    rw [hinit (.inr (.inr (.inr hc))), hpa hc]
  case h_9 hc => rw [decodeTxBundle_congr (htx (BitVec.eq_of_toNat_eq hc))]
  case h_10 hc => rw [decodeDresBundle_congr (hdres (BitVec.eq_of_toNat_eq hc))]
  case h_12 hc => rw [hla (BitVec.eq_of_toNat_eq hc)]
  all_goals rfl

end Sys2Proof.Machine

/-! What the builders and the decoder make of each other's output (spec/42_builder.md R160 to R166; spec/41_decoder.md
R131; spec/40_tables.md R104): a built request is well formed and short, and its image is a frame. -/

namespace Sys2Proof.Machine

/-! ## Wire images -/

theorem wireImage_of_none {req : TxRequest} (h : req.opcode = none) :
    wireImage req = [header req.initiator req.destination] := by
  simp only [wireImage, h]

theorem wireImage_of_some {req : TxRequest} {op : Byte} (h : req.opcode = some op) :
    wireImage req = frameBytes req.initiator req.destination op req.operands := by
  simp only [wireImage, h, frameBytes]

theorem operandsFit_of_wellFormed {req : TxRequest} (h : req.wellFormed = true) :
    operandsFit req.operands = true := ((Bool.and_eq_true _ _).mp h).1

theorem wireImage_length {req : TxRequest} (h : req.wellFormed = true) :
    1 ≤ (wireImage req).length ∧ (wireImage req).length ≤ 16 := by
  have hfit := operandsFit_eq_true.mp (operandsFit_of_wellFormed h)
  cases hop : req.opcode with
  | none => simp [wireImage_of_none hop]
  | some op =>
    rw [wireImage_of_some hop, frameBytes, List.length_cons, List.length_cons]
    omega

theorem decodeFrame_wireImage_of_none (cfg : Config) {req : TxRequest} (h : req.opcode = none) :
    decodeFrame cfg (wireImage req) = .ok (.framePoll req.initiator req.destination) := by
  rw [wireImage_of_none h, decodeFrame, hiNibble_header, loNibble_header]

theorem decodeFrame_wireImage_of_some (cfg : Config) {req : TxRequest} {op : Byte} (hwf : req.wellFormed = true)
    (h : req.opcode = some op) :
    decodeFrame cfg (wireImage req) = .ok (decodeMsg cfg req.initiator req.destination op req.operands) := by
  rw [wireImage_of_some h, decodeFrame_frameBytes _ _ _ _ (operandsFit_of_wellFormed hwf)]

/-! ## The builders with FAULT clear -/

section
variable {s : State} (i d : Nibble) (aop : Byte) {reason : Byte} (hs : s.fault = none)
include hs

theorem exec_buildPing_of_healthy :
    exec (.buildPing i d) s = .next (respond (.built (pingRequest i d)) s) := by
  simp only [exec, execBuildPing, serve_of_healthy hs]

theorem exec_buildFeatureAbort_of_known (h : reason.toNat ≤ 4) :
    exec (.buildFeatureAbort i d aop reason) s =
      .next (respond (.built (featureAbortRequest i d aop reason)) s) := by
  simp only [exec, execBuildFeatureAbort, serve_of_healthy hs]
  exact if_neg (Nat.not_lt.mpr h)

theorem exec_buildFeatureAbort_of_unknown (h : 4 < reason.toNat) :
    exec (.buildFeatureAbort i d aop reason) s = .next (respond .invalidBuildInput s) := by
  simp only [exec, execBuildFeatureAbort, serve_of_healthy hs]
  exact if_pos h

end

/-- What R160 says of every built request. -/
structure ShortRequest (req : TxRequest) : Prop where
  wellFormed : req.wellFormed = true
  retry : req.retry = 5
  short : (wireImage req).length ≤ 4

theorem shortRequest_ping (i d : Nibble) : ShortRequest (pingRequest i d) :=
  ⟨rfl, rfl, Nat.le_of_ble_eq_true rfl⟩

theorem shortRequest_simple (i d : Nibble) (op : Byte) : ShortRequest (simpleRequest i d op) :=
  ⟨rfl, rfl, Nat.le_of_ble_eq_true rfl⟩

theorem shortRequest_featureAbort (i d : Nibble) (aop reason : Byte) :
    ShortRequest (featureAbortRequest i d aop reason) := ⟨rfl, rfl, Nat.le_of_ble_eq_true rfl⟩

theorem shortRequest_activeSource (cfg : Config) (i : Nibble) (pa : PhysAddr) :
    ShortRequest (activeSourceRequest cfg i pa) := ⟨rfl, rfl, Nat.le_of_ble_eq_true rfl⟩

/-- A pure request answers with a request only where it is one of the four builders. -/
theorem shortRequest_of_built {i : Instr} {s t : State} {req : TxRequest} (hi : isPure i = true)
    (hs : s.fault = none) (h : exec i s = .next t) (hr : t.response = some (.built req)) : ShortRequest req := by
  cases i with
  | classify op =>
    cases (exec_classify_of_healthy op hs).symm.trans h
    cases hr
  | describe op =>
    cases (exec_describe_of_healthy op hs).symm.trans h
    cases hr
  | decode flen fb =>
    simp only [exec, execDecode, serve_of_healthy hs] at h
    split at h <;> cases h <;> cases hr
  | buildPing i d =>
    cases (exec_buildPing_of_healthy i d hs).symm.trans h
    cases hr
    exact shortRequest_ping i d
  | buildSimple i d op =>
    cases (exec_buildSimple_of_healthy i d op hs).symm.trans h
    cases hr
    exact shortRequest_simple i d op
  | buildFeatureAbort i d aop reason =>
    rcases Nat.lt_or_ge 4 reason.toNat with hreason | hreason
    · cases (exec_buildFeatureAbort_of_unknown i d aop hs hreason).symm.trans h
      cases hr
    · cases (exec_buildFeatureAbort_of_known i d aop hs hreason).symm.trans h
      cases hr
      exact shortRequest_featureAbort i d aop reason
  | buildActiveSource i pa =>
    cases (exec_buildActiveSource_of_healthy i pa hs).symm.trans h
    cases hr
    exact shortRequest_activeSource s.cfg i pa
  | _ => cases hi

/-- With FAULT set the response is none, so an instruction that gives one ran. -/
theorem fault_eq_none_of_response {i : Instr} {s t : State} {r : Response} (h : exec i s = .next t)
    (hr : t.response = some r) : s.fault = none := by
  rcases exec_next h with ⟨_, _, rfl⟩ | ⟨hs, _⟩
  · cases hr
  · exact hs

/-! ## Round trips and rejections -/

theorem accepted_featureAbort {cfg : Config} {d : Nibble} (h : conformsFeatureAbort cfg = true) (hd : d ≠ 0xF) :
    accepted cfg d opFeatureAbort 2 := by
  obtain ⟨hflag, hlen⟩ := (Bool.and_eq_true _ _).mp h
  obtain ⟨hmin, hmax⟩ := lengthSatisfies_eq_true.mp hlen
  exact ⟨(if_neg hd).trans hflag, hmin, hmax, by decide⟩

theorem accepted_activeSource {cfg : Config} (h : conformsActiveSource cfg = true) :
    accepted cfg broadcast cfg.opActiveSource 2 := by
  obtain ⟨hflag, hlen⟩ := (Bool.and_eq_true _ _).mp h
  obtain ⟨hmin, hmax⟩ := lengthSatisfies_eq_true.mp hlen
  exact ⟨hflag, hmin, hmax, by decide⟩

theorem classify_of_unlisted {cfg : Config} {op : Byte} (h : ∀ e ∈ cfg.opcodeTable, e.1 ≠ op) :
    classify cfg op = unlistedProperties := by
  rw [classify, lookup_of_unlisted h, Option.getD_none]

/-! ## The obligations -/

/-- Settles O8: the image is the poll or the message frame of the request's fields, and only the builders build. -/
theorem wireImageIsAFrame : Obligations.WireImageIsAFrame := by
  refine ⟨fun req hwf => ⟨(wireImage_length hwf).1, (wireImage_length hwf).2, fun cfg => ?image⟩,
    fun i s t req hi h hr => ?built⟩
  case image =>
    cases hop : req.opcode with
    | none => exact ⟨_, decodeFrame_wireImage_of_none cfg hop, fun _ => rfl, nofun⟩
    | some op =>
      refine ⟨_, decodeFrame_wireImage_of_some cfg hwf hop, nofun, fun op' hop' => ?_⟩
      cases hop'
      exact messageFields_decodeMsg ..
  case built =>
    obtain ⟨hwf, hretry, hshort⟩ := shortRequest_of_built hi (fault_eq_none_of_response h hr) h hr
    exact ⟨hwf, hretry, hshort⟩

/-- Settles O10: the default row has both flags false, so the first check of the decoder fails. -/
theorem unlistedOpcodeIsUnsupported : Obligations.UnlistedOpcodeIsUnsupported := by
  intro op s hs hunlisted
  have hrow := classify_of_unlisted hunlisted
  refine ⟨?_, fun h ops hfit => ?_⟩
  · rw [exec_classify_of_healthy op hs, hrow]
    rfl
  · rw [decodeBytes_cons_cons hfit, decodeMessage_of_unrecognized (by rw [hrow]; rfl)]

/-- Settles O21: under its constraint the decoder accepts each image, and an accepted frame decodes to its fields. -/
theorem buildersRoundTripThroughDecoder : Obligations.BuildersRoundTripThroughDecoder :=
  fun _ _ _ _ _ pa => ⟨fun h hd => decodeBytes_of_accepted (accepted_featureAbort h hd), fun h =>
    ⟨_, _, toNat_eq_highByte_lowByte pa, decodeBytes_of_accepted (accepted_activeSource h)⟩⟩

/-- Settles O12, the case of DECODE with no frame argument. -/
theorem decodeLengthContract : Obligations.DecodeLengthContract :=
  fun _ fb _ hs h => exec_decode_of_bad_length fb hs h

/-- Settles O17: the request built is `pingRequest`, which has no opcode. -/
theorem buildPingIsHeaderOnly : Obligations.BuildPingIsHeaderOnly :=
  fun i d _ hs => ⟨pingRequest i d, exec_buildPing_of_healthy i d hs, rfl, rfl⟩

/-- Settles O19, by the reason byte's bound. -/
theorem buildFeatureAbortChecksReason : Obligations.BuildFeatureAbortChecksReason :=
  fun i d aop reason _ hs =>
    ⟨fun h => ⟨featureAbortRequest i d aop reason, exec_buildFeatureAbort_of_known i d aop hs h, rfl, rfl⟩,
      fun h => ⟨exec_buildFeatureAbort_of_unknown i d aop hs h, rfl⟩⟩

end Sys2Proof.Machine

/-! The numeric codes (spec/30_encoding.md R72 to R76): the bundle of each form of response, and the bytes of the
feature-abort reasons. -/

namespace Sys2Proof.Machine

theorem reasonOfByte_eq_some (rb : Byte) (r : Reason) : reasonOfByte rb = some r ↔ reasonCode r = rb := by
  cases r <;> revert rb <;> decide

theorem reasonOfByte_reasonCode (r : Reason) : reasonOfByte (reasonCode r) = some r :=
  (reasonOfByte_eq_some _ r).mpr rfl

theorem reasonKnown_eq_true (rb : Byte) : reasonKnown rb = true ↔ rb.toNat ≤ 4 := by
  rw [reasonKnown_eq_decide, decide_eq_true_iff]

/-- No reason, so no text, for a byte above 0x04 (R195). -/
theorem reasonOfByte_of_unknown {rb : Byte} (h : 4 < rb.toNat) : reasonOfByte rb = none :=
  Option.not_isSome_iff_eq_none.mp fun hk => Nat.not_le.mpr h ((reasonKnown_eq_true rb).mp hk)

theorem statusCode_eq_status (r : Response) : statusCode r = (responseBundle r).status := by
  cases r with
  | decoded d => cases d <;> rfl
  | dispatched d => cases d <;> rfl
  | _ => rfl

/-! ## The obligations -/

/-- Settles O32: byte and reason determine each other, and the texts follow the reasons. -/
theorem reasonBytesNameReasons : Obligations.ReasonBytesNameReasons := by
  refine ⟨⟨rfl, rfl, rfl, rfl, rfl⟩, reasonKnown_eq_true, reasonOfByte_eq_some, fun cfg r => ?_, fun cfg rb h => ?_⟩
  · rw [surfacedReason, reasonOfByte_reasonCode, Option.map_some]
  · rw [surfacedReason, reasonOfByte_of_unknown h, Option.map_none]

/-- Settles O60: each equation is the definition of `responseBundle` at its form, and the status agrees by cases. -/
theorem responseBundleCodes : Obligations.ResponseBundleCodes :=
  ⟨fun _ => rfl, fun _ => rfl, rfl, rfl, rfl, rfl, fun _ _ => rfl, fun _ _ _ _ _ => rfl, fun _ => rfl, rfl,
    fun _ => rfl, rfl, fun _ => rfl, fun _ _ _ => rfl, rfl, rfl, fun _ => rfl, rfl, fun _ => rfl, fun _ => rfl,
    statusCode_eq_status⟩

end Sys2Proof.Machine

/-! Faults, refusal and reset (spec/60_exceptions.md R247, R248; spec/70_reset_and_hazards.md R280): a faulted codec
refuses every input but a reset, and an instruction that raises a fault answers nothing. -/

namespace Sys2Proof.Machine

/-! ## A faulted codec -/

theorem exec_of_faulted {s : State} {c : FaultCode} (i : Instr) (hs : s.fault = some c) :
    exec i s = .next (noResponse s) := by
  obtain ⟨body, hbody⟩ := exec_serves i s
  exact hbody.trans (serve_of_faulted hs)

theorem stepItem_of_faulted {s : State} {c : FaultCode} (w : Item) (hs : s.fault = some c) :
    stepItem w s = .next (noResponse s) := by
  unfold stepItem
  split
  · exact exec_of_faulted _ hs
  · exact serve_of_faulted hs

theorem step_of_item {s : State} {w : Item} {rest : List Input} (h : s.inbox = .item w :: rest) :
    step s = stepItem w { s with inbox := rest } := by
  simp only [step, h]

theorem step_of_reset {s : State} {rest : List Input} (h : s.inbox = .reset :: rest) :
    step s = .next (resetCodec { s with inbox := rest }) := by
  simp only [step, h]

theorem step_of_idle {s : State} (h : s.inbox = []) : step s = .next s := by
  simp only [step, h]

/-- What a step with no reset leaves of a faulted codec: all but the input taken and the response. -/
structure StaysFaulted (k : Nat) (s t : State) : Prop where
  fault : t.fault = s.fault
  self : t.ctxSelfLa = s.ctxSelfLa
  hist : t.hist = s.hist
  cfg : t.cfg = s.cfg
  inbox : t.inbox = s.inbox.drop k
  response : t.response = none ∨ t.response = s.response

theorem StaysFaulted.trans {k : Nat} {s u t : State} (h : StaysFaulted 1 s u) (h' : StaysFaulted k u t) :
    StaysFaulted (k + 1) s t where
  fault := h'.fault.trans h.fault
  self := h'.self.trans h.self
  hist := h'.hist.trans h.hist
  cfg := h'.cfg.trans h.cfg
  inbox := by rw [h'.inbox, h.inbox, List.drop_drop, Nat.add_comm]
  response := h'.response.elim .inl fun hr => h.response.imp hr.trans hr.trans

theorem step_of_faulted {s : State} {c : FaultCode} (hs : s.fault = some c) (hreset : .reset ∉ s.inbox.take 1) :
    ∃ t, step s = .next t ∧ StaysFaulted 1 s t := by
  match hin : s.inbox with
  | [] => exact ⟨s, step_of_idle hin, rfl, rfl, rfl, rfl, by simp [hin], .inr rfl⟩
  | .reset :: rest => simp [hin] at hreset
  | .item w :: rest =>
    refine ⟨_, (step_of_item hin).trans (stepItem_of_faulted w hs), rfl, rfl, rfl, rfl, by simp [hin], .inl rfl⟩

theorem core_run_succ_of_next {k : Nat} {s u : State} (h : step s = .next u) :
    Sys2Proof.core.run (k + 1) s = Sys2Proof.core.run k u := by
  have hcore : Sys2Proof.core.step s = .next u := h
  simp only [Host.Core.run, hcore]

theorem core_run_of_faulted {k : Nat} {s : State} {c : FaultCode} (hs : s.fault = some c)
    (hreset : .reset ∉ s.inbox.take k) : ∃ t, Sys2Proof.core.run k s = .next t ∧ StaysFaulted k s t := by
  induction k generalizing s with
  | zero => exact ⟨s, rfl, rfl, rfl, rfl, rfl, rfl, .inr rfl⟩
  | succ k ih =>
    obtain ⟨u, hstep, hu⟩ := step_of_faulted hs fun h => hreset (List.take_subset_take_left _ (by omega) h)
    have hrest : .reset ∉ u.inbox.take k := by
      rw [hu.inbox, List.take_drop]
      exact fun h => hreset (Nat.add_comm .. ▸ List.mem_of_mem_drop h)
    obtain ⟨t, hrun, ht⟩ := ih (hu.fault.trans hs) hrest
    exact ⟨t, (core_run_succ_of_next hstep).trans hrun, hu.trans ht⟩

/-! ## Raising a fault -/

theorem Routed.response_of_fault {u t : State} (h : Routed u t) (hu : u.fault = none) (ht : t.fault ≠ none) :
    t.response = none := by
  rcases h with ⟨_, rfl⟩ | ⟨_, rfl⟩ | ⟨_, _, _, _, rfl⟩
  · exact absurd hu ht
  · rfl
  · exact absurd hu ht

theorem RoutedFrom.response_of_fault {s t : State} (h : RoutedFrom s t) (hs : s.fault = none)
    (ht : t.fault ≠ none) : t.response = none := by
  rcases h with h | ⟨_, rfl⟩ | ⟨_, h⟩ | ⟨_, h⟩
  · exact h.response_of_fault hs ht
  · exact absurd hs ht
  · exact h.response_of_fault hs ht
  · exact h.response_of_fault hs ht

theorem Served.response_of_fault {i : Instr} {s t : State} (h : Served i s t) (hs : s.fault = none)
    (ht : t.fault ≠ none) : t.response = none := by
  rcases h with ⟨_, _, rfl⟩ | ⟨_, rfl⟩ | ⟨_, _, _, _, rfl⟩ | ⟨_, _, rfl⟩ | ⟨_, _, _, rfl⟩ | ⟨_, _, rfl⟩
  · exact absurd hs ht
  · rfl
  all_goals exact absurd hs ht

theorem exec_response_of_fault {i : Instr} {s t : State} (h : exec i s = .next t) (ht : t.fault ≠ none) :
    t.response = none := by
  rcases exec_next h with ⟨_, _, rfl⟩ | ⟨hs, h | ⟨_, h⟩⟩
  · rfl
  · exact h.response_of_fault hs ht
  · exact h.response_of_fault hs ht

/-- A registration that writes CTX_SELF_LA raises no fault. -/
theorem exec_ctxSelfLa_of_fault {i : Instr} {s t : State} (h : exec i s = .next t) (ht : t.fault ≠ none) :
    t.ctxSelfLa = s.ctxSelfLa := by
  rcases exec_sameSetup_or_register h with h' | ⟨_, _, rfl⟩
  · exact h'.self
  · cases exec_response_of_fault h ht

theorem illegalCommand_of_healthy {s : State} (hs : s.fault = none) :
    illegalCommand s = .next (raiseFault .illegalCommand s) := serve_of_healthy hs

/-! ## The obligations -/

/-- Settles O44: every instruction is served, and a set FAULT refuses whatever is served. -/
theorem faultedCodecRefusesEveryRequest : Obligations.FaultedCodecRefusesEveryRequest :=
  fun i _ _ hs => exec_of_faulted i hs

/-- Settles O45, by induction on the number of steps. -/
theorem faultIsStickyAlongRuns : Obligations.FaultIsStickyAlongRuns := by
  intro k s c hs hreset
  obtain ⟨t, hrun, ht⟩ := core_run_of_faulted hs hreset
  exact ⟨t, hrun, ht.fault.trans hs, ht.self, ht.hist, ht.cfg, ht.inbox, ht.response⟩

/-- Settles O46, from the inversion lemma of `exec`. -/
theorem faultingRequestGivesNoResponse : Obligations.FaultingRequestGivesNoResponse :=
  fun _ _ _ h ht => ⟨exec_response_of_fault h ht, exec_ctxSelfLa_of_fault h ht⟩

/-- Settles O43: the four codes share one meaning. -/
theorem reservedCommandsFault : Obligations.ReservedCommandsFault := fun _ hs =>
  ⟨illegalCommand_of_healthy hs, illegalCommand_of_healthy hs, illegalCommand_of_healthy hs,
    illegalCommand_of_healthy hs⟩

/-- Settles O47: a reset taken from the inputs is `resetCodec`. -/
theorem resetClearsCodecState : Obligations.ResetClearsCodecState :=
  fun _ _ h => step_of_reset h

end Sys2Proof.Machine

/-! The requests that call the transport (spec/43_dispatch.md R190, R201, R202; spec/60_exceptions.md R264): each makes
its one call, and its outcome is that of the call's draw. -/

namespace Sys2Proof.Machine

section
variable {s : State} (hs : s.fault = none)
include hs

/-! ## Calls by their draw -/

theorem exec_register_of_ok {la : Nibble} (hd : drawRegister s la = .answered (.ok ())) :
    exec (.register la) s = .next (respond .registered { afterRegister la (.ok ()) s with ctxSelfLa := some la }) := by
  simp only [exec, execRegister, serve_of_healthy hs, callRegister, hd, onDraw_answered]

theorem exec_register_of_never {la : Nibble} (hd : drawRegister s la = .never) :
    exec (.register la) s = .fault (.hang .registerDevice) := by
  simp only [exec, execRegister, serve_of_healthy hs, callRegister, hd, onDraw_never]

theorem exec_getPhysAddr_of_never (hd : drawPhysAddr s = .never) :
    exec .getPhysAddr s = .fault (.hang .getPhysicalAddress) := by
  simp only [exec, execGetPhysAddr, serve_of_healthy hs, callPhysAddr, hd, onDraw_never]

theorem exec_handleOne_of_never (hd : drawReceive s = .never) : exec .handleOne s = .fault (.hang .receive) := by
  simp only [exec, execHandleOne, serve_of_healthy hs, callReceive, hd, onDraw_never]

/-! ## Arguments -/

theorem exec_transmit_of_malformed {req : Option TxRequest} (h : argumentIf TxRequest.wellFormed req = none) :
    exec (.transmit req) s = .next (raiseFault .illegalArgument s) := by
  simp only [exec, execTransmit, serve_of_healthy hs, h, withArgument]

theorem exec_dispatch_of_malformed {dres : Option CarriedResult}
    (h : argumentIf CarriedResult.wellFormed dres = none) :
    exec (.dispatch dres) s = .next (raiseFault .illegalArgument s) := by
  simp only [exec, execDispatch, serve_of_healthy hs, h, withArgument]

theorem exec_dispatch_of_wellFormed {r : CarriedResult} (h : r.wellFormed = true) :
    exec (.dispatch (some r)) s = dispatchResult r s := by
  simp only [exec, execDispatch, serve_of_healthy hs, argumentIf_of_ok h, withArgument]

end

theorem vendorIdRequested_of_never {sender self : Nibble} {s : State} (hself : s.ctxSelfLa = some self)
    (hd : drawTransmit s (featureAbortRequest self sender opGiveDeviceVendorId 0x00) = .never) :
    vendorIdRequested sender s = .fault (.hang .transmit) := by
  simp only [vendorIdRequested, hself]
  exact transmitOnce_of_never hd

/-! ## The obligations -/

/-- Settles O22: a well-formed request is transmitted once and its answer relayed. -/
theorem transmitMakesOneCall : Obligations.TransmitMakesOneCall := by
  intro req s r hs hwf hd
  rw [exec_transmit_of_wellFormed hs hwf, transmitOnce_of_answered hd]
  cases r <;> rfl

/-- Settles O23: an argument that is no well-formed one is none to the operation. -/
theorem malformedArgumentFaults : Obligations.MalformedArgumentFaults := fun _ hs =>
  ⟨exec_transmit_of_malformed hs rfl, exec_dispatch_of_malformed hs rfl,
    fun _ h => exec_transmit_of_malformed hs (argumentIf_of_not_ok h),
    fun _ h => exec_dispatch_of_malformed hs (argumentIf_of_not_ok h)⟩

/-- Settles O24, by the transport's answer. -/
theorem registerWritesSelfOnAcceptance : Obligations.RegisterWritesSelfOnAcceptance := by
  intro la s r hs hd
  cases r with
  | ok => exact exec_register_of_ok hs hd
  | err e => exact exec_register_of_err hs hd

/-- Settles O25: the answer is relayed. -/
theorem getPhysAddrAsksTransport : Obligations.GetPhysAddrAsksTransport := by
  intro s r hs hd
  rw [exec_getPhysAddr_of_answered hs hd]
  cases r <;> rfl

/-- Settles O28: an error and a poll make no call, and every such argument is well formed. -/
theorem dispatchDropsErrorsDefaultsPolls : Obligations.DispatchDropsErrorsDefaultsPolls := fun _ hs =>
  ⟨fun _ => exec_dispatch_of_wellFormed hs rfl, fun _ _ => exec_dispatch_of_wellFormed hs rfl⟩

end Sys2Proof.Machine

/-! Received bytes (spec/43_dispatch.md R200; log 9): HANDLE_ONE and the frame instructions decode them and go on as
DISPATCH does, in the state that holds the Receive event. -/

namespace Sys2Proof.Machine

/-! ## Received bytes by what they decode to -/

theorem handleReceived_of_decoded {bytes : List Byte} {s : State} {r : DecodeResult}
    (h : decodeBytes s.cfg bytes = some r) : handleReceived bytes s = dispatchResult (carried r) s := by
  rw [handleReceived, h]

/-- Bytes that break the length contract have no decode result (R131). -/
theorem decodeBytes_of_bad_length {cfg : Config} {bytes : List Byte} (h : bytes.length = 0 ∨ 16 < bytes.length) :
    decodeBytes cfg bytes = none := by
  rw [← Option.not_isSome_iff_eq_none, decodeBytes_isSome]
  omega

theorem handleReceived_of_bad_length {bytes : List Byte} {s : State} (h : bytes.length = 0 ∨ 16 < bytes.length) :
    handleReceived bytes s = .next (raiseFault .lengthContract s) := by
  rw [handleReceived, decodeBytes_of_bad_length h]

theorem handleReceived_of_accepted {i d : Nibble} {op : Byte} {ops : List Byte} {s : State}
    (h : accepted s.cfg d op ops.length) :
    handleReceived (header i d :: op :: ops) s = dispatchMessage i op ops s :=
  handleReceived_of_decoded (decodeBytes_of_accepted h)

/-- A frame that is not accepted fails one of the decoder's checks. -/
theorem decodeMessage_of_not_accepted {cfg : Config} {i d : Nibble} {op : Byte} {ops : List Byte}
    (hfit : ops.length ≤ 14) (h : ¬ accepted cfg d op ops.length) : ∃ k, decodeMessage cfg i d op ops = .err k := by
  cases hrec : recognized (classify cfg op) with
  | false => exact ⟨_, decodeMessage_of_unrecognized hrec⟩
  | true =>
    cases hflag : (if d = 0xF then (classify cfg op).broadcastAllowed else (classify cfg op).directedAllowed) with
    | false =>
      split_ifs at hflag with hd
      · exact ⟨_, decodeMessage_of_broadcast_mismatch hrec hd hflag⟩
      · exact ⟨_, decodeMessage_of_directed_mismatch hrec hd hflag⟩
    | true =>
      refine ⟨_, decodeMessage_of_bad_length hflag (Bool.eq_false_iff.mpr fun hlen => h ?_)⟩
      obtain ⟨hmin, hmax⟩ := lengthSatisfies_eq_true.mp hlen
      exact ⟨hflag, hmin, hmax, hfit⟩

/-! ## Frame instructions with FAULT clear -/

theorem receiveFrame_of_healthy {s : State} (bytes : List Byte) (hs : s.fault = none) :
    receiveFrame bytes s = handleReceived bytes (afterDelivery bytes s) := serve_of_healthy hs

theorem exec_frame_of_accepted {ins : Instr} {s : State} {i d : Nibble} {op : Byte} {ops : List Byte}
    (hs : s.fault = none) (hfields : messageFields s.cfg ins = some (i, d, op, ops))
    (h : accepted s.cfg d op ops.length) :
    exec ins s = dispatchMessage i op ops (afterDelivery (header i d :: op :: ops) s) := by
  rw [exec_of_messageFields hfields, receiveFrame_of_healthy _ hs]
  exact handleReceived_of_accepted h

/-- An instruction encoded as a frame is its bytes received. -/
theorem exec_of_encode_frame {ins : Instr} {s : State} {bytes : List Byte} (h : encode s.cfg ins = .frame bytes) :
    exec ins s = receiveFrame bytes s := by
  cases ins with
  | transmit req => cases req <;> cases h
  | dispatch dres => cases dres <;> cases h
  | _ => cases h <;> rfl

/-! ## Encoded inputs -/

theorem stepItem_of_ok {w : Item} {s : State} {i : Instr} (h : decodeItem s.cfg w = .ok i) :
    stepItem w s = exec i s := by
  rw [stepItem, h]

theorem stepItem_of_error {w : Item} {s : State} {e : FrameReject} (h : decodeItem s.cfg w = .error e) :
    stepItem w s = receiveFrame (itemBytes w) s := by
  rw [stepItem, h]

/-- Bytes that are no frame break the length contract (R60, R131). -/
theorem length_of_decodeFrame_error {cfg : Config} {bytes : List Byte} {e : FrameReject}
    (h : decodeFrame cfg bytes = .error e) : bytes.length = 0 ∨ 16 < bytes.length := by
  have hno : ¬ ∃ i, decodeFrame cfg bytes = .ok i := fun ⟨_, hok⟩ => nomatch h.symm.trans hok
  rw [decodeFrame_isOk] at hno
  omega

/-! ## The obligations -/

/-- Settles O27: each call's draw decides, and nothing before the reply's call stops the machine. -/
theorem unansweredCallHasNoStep : Obligations.UnansweredCallHasNoStep := by
  intro s hs
  refine ⟨fun _ => exec_register_of_never hs, exec_getPhysAddr_of_never hs, exec_handleOne_of_never hs,
    fun req hwf hd => (exec_transmit_of_wellFormed hs hwf).trans (transmitOnce_of_never hd), ?_⟩
  rintro self i d ops _ hself rfl
  refine ⟨fun hfit hd => ?dispatch, fun bytes desc u hrecv hdec hu hd => ?handleOne,
    fun ins u hfields hacc hu hd => ?frame⟩
  case dispatch =>
    rw [exec_dispatch_message_of_healthy i d _ hs hfit]
    exact vendorIdRequested_of_never hself hd
  case handleOne =>
    obtain rfl : u = afterReceive (.ok bytes) s := hu
    rw [exec_handleOne_of_ok hs hrecv, handleReceived_of_vendorId (s := afterReceive _ s) hdec]
    exact vendorIdRequested_of_never (s := afterReceive _ s) hself hd
  case frame =>
    obtain rfl : u = afterDelivery _ s := hu
    rw [exec_frame_of_accepted hs hfields hacc]
    exact vendorIdRequested_of_never (s := afterDelivery _ s) hself hd

/-- Settles O33, by the receive's answer and the length of its bytes. -/
theorem handleOneIsReceiveDecodeDispatch : Obligations.HandleOneIsReceiveDecodeDispatch := by
  intro s u r hs hd hu
  obtain rfl : u = afterReceive r s := hu
  refine ⟨?_, ?_, ?_⟩
  · rintro e rfl
    exact exec_handleOne_of_err hs hd
  · rintro bytes rfl hbad
    exact (exec_handleOne_of_ok hs hd).trans (handleReceived_of_bad_length hbad)
  · rintro bytes rfl hlo hhi
    obtain ⟨dr, hdr⟩ := Option.isSome_iff_exists.mp (decodeBytes_isSome (cfg := s.cfg).mpr ⟨hlo, hhi⟩)
    refine ⟨dr, hdr, ?_⟩
    rw [exec_handleOne_of_ok hs hd, exec_dispatch_of_wellFormed (s := afterReceive _ s) hs (decodeBytes_wellFormed hdr)]
    exact handleReceived_of_decoded hdr

/-- Settles O36: the header byte alone decodes to Polling. -/
theorem receivedPollIsDefault : Obligations.ReceivedPollIsDefault :=
  fun i d _ hs => receiveFrame_of_healthy [header i d] hs

/-- Settles O37: an accepted FEATURE_ABORT is routed by its operand count. -/
theorem receivedFeatureAbort : Obligations.ReceivedFeatureAbort := by
  intro i d ops s hs hacc
  rw [exec_frame_of_accepted hs rfl hacc, dispatchMessage_featureAbort]
  match ops with
  | [aop, rb] =>
    rw [featureAbortReceived_pair]
    rfl
  | [] | [_] | _ :: _ :: _ :: _ => rfl

/-- Settles O38: an accepted GIVE_DEVICE_VENDOR_ID goes to the reply, after its Receive event. -/
theorem receivedVendorIdRequest : Obligations.ReceivedVendorIdRequest := by
  intro i d ops s u hs hacc hu
  obtain rfl : u = afterDelivery (header i d :: 0x8C :: ops) s := hu
  rw [exec_frame_of_accepted hs rfl hacc, dispatchMessage_vendorId]
  refine ⟨vendorIdRequested_of_unregistered (s := afterDelivery _ s), ?_⟩
  rintro self _ r hself rfl hd
  rw [vendorIdRequested_of_answered (s := afterDelivery _ s) hself hd, respond, afterTransmit, afterDelivery_hist,
    List.append_assoc]
  cases r <;> rfl

/-- Settles O39, from the routing's arms that ignore. -/
theorem receivedVendorFramesIgnored : Obligations.ReceivedVendorFramesIgnored := by
  refine fun i d ops s hs => ⟨fun habort hvendor hacc => ?_, fun habort hvendor hacc => ?_⟩
  · rw [exec_frame_of_accepted hs rfl hacc]
    exact dispatchMessage_of_ignored habort hvendor (.inl rfl)
  · rw [exec_frame_of_accepted hs rfl hacc]
    exact dispatchMessage_of_ignored habort hvendor (.inr rfl)

/-- Settles O40: every row that carries the opcode is its bytes received, and they take the routing's last arm. -/
theorem receivedOtherFramesDefault : Obligations.ReceivedOtherFramesDefault := by
  intro i d op ops s hs hacc habort hvendor hid hcmd
  have frame : ∀ ins, messageFields s.cfg ins = some (i, d, op, ops) →
      exec ins s = .next (respond (.dispatched .default) (afterDelivery (header i d :: op :: ops) s)) :=
    fun ins hfields => (exec_frame_of_accepted hs hfields hacc).trans
      (dispatchMessage_of_default (s := afterDelivery _ s) habort hvendor hid hcmd)
  refine ⟨_, rfl, frame _ rfl, ?_, ?_, ?_⟩
  all_goals
    rintro rfl
    exact frame _ rfl

/-- Settles O41, by whether the bytes are a frame. -/
theorem rejectedFramesAreDropped : Obligations.RejectedFramesAreDropped := by
  intro ins i d op ops s u hs hfields hu
  obtain rfl : u = afterDelivery (header i d :: op :: ops) s := hu
  rw [exec_of_messageFields hfields, receiveFrame_of_healthy _ hs]
  refine ⟨fun hfit hacc => ?_, fun hlong => ?_⟩
  · obtain ⟨k, hk⟩ := decodeMessage_of_not_accepted hfit hacc
    have hdec : decodeBytes s.cfg (header i d :: op :: ops) = some (.err k) := by
      rw [decodeBytes_cons_cons hfit, hiNibble_header, loNibble_header, hk]
    exact ⟨k, handleReceived_of_decoded (s := afterDelivery _ s) hdec, hdec⟩
  · exact handleReceived_of_bad_length (.inr (by simp only [List.length_cons]; omega))

/-- Settles O42: the scripted receive leaves the state that a delivery leaves. -/
theorem frameInstructionIsHandleOne : Obligations.FrameInstructionIsHandleOne := by
  intro ins s bytes hs henc
  rw [exec_of_encode_frame henc, receiveFrame_of_healthy bytes hs,
    exec_handleOne_of_ok (bytes := bytes) (by exact hs) rfl]
  rfl

/-- Settles O59: `step` runs the input it takes, and bytes that are no frame break the length contract. -/
theorem stepRunsDecodedInstruction : Obligations.StepRunsDecodedInstruction := by
  refine ⟨fun s w rest i hin hdec => ?_, fun s bytes rest e hin herr hs => ?_, fun _ => step_of_idle⟩
  · exact (step_of_item hin).trans (stepItem_of_ok (s := { s with inbox := rest }) hdec)
  · rw [step_of_item hin, stepItem_of_error (s := { s with inbox := rest }) (w := .frame bytes) herr]
    exact (receiveFrame_of_healthy (s := { s with inbox := rest }) _ hs).trans
      (handleReceived_of_bad_length (length_of_decodeFrame_error herr))

end Sys2Proof.Machine

/-! What no outcome depends on (spec/10_state.md R24; spec/40_tables.md R103; spec/43_dispatch.md R203): the texts, the
history behind scripted draws, and the destination. Each follows from one fact: how a request ends once its input is
read is fixed by the tables and CTX_SELF_LA. -/

namespace Sys2Proof.Machine

/-! ## How a request ends -/

/-- The end of a request that has read its input: a response, a fault, or one transmission. -/
inductive Ending where
  | respond (r : Response)
  | fault (c : FaultCode)
  | send (req : TxRequest) (k : Bool → Response)

/-- What the end does in a state. -/
def Ending.run : Ending → State → Result
  | .respond r, s => .next (Machine.respond r s)
  | .fault c, s => .next (raiseFault c s)
  | .send req k, s => transmitOnce req k s

/-- Two configurations agree on all but the texts. -/
structure SameTables (cfg cfg' : Config) : Prop where
  opcodeTable : cfg'.opcodeTable = cfg.opcodeTable
  lengthClassTable : cfg'.lengthClassTable = cfg.lengthClassTable
  activeSource : cfg'.opActiveSource = cfg.opActiveSource
  deviceVendorId : cfg'.opDeviceVendorId = cfg.opDeviceVendorId
  vendorCommand : cfg'.opVendorCommand = cfg.opVendorCommand
  givePowerStatus : cfg'.opGiveDevicePowerStatus = cfg.opGiveDevicePowerStatus

theorem SameTables.refl (cfg : Config) : SameTables cfg cfg := ⟨rfl, rfl, rfl, rfl, rfl, rfl⟩

theorem SameTables.classify {cfg cfg' : Config} (h : SameTables cfg cfg') (op : Byte) :
    classify cfg' op = classify cfg op := by
  rw [Machine.classify, h.opcodeTable, Machine.classify]

theorem SameTables.lengthClassOf {cfg cfg' : Config} (h : SameTables cfg cfg') (c : Nibble) :
    lengthClassOf cfg' c = lengthClassOf cfg c := by
  simp only [Machine.lengthClassOf, h.lengthClassTable]

theorem SameTables.messageFields {cfg cfg' : Config} (h : SameTables cfg cfg') (ins : Instr) :
    messageFields cfg' ins = messageFields cfg ins := by
  cases ins <;> simp only [Sys2Proof.messageFields, h.activeSource, h.deviceVendorId, h.vendorCommand,
    h.givePowerStatus]

theorem SameTables.activeSourceRequest {cfg cfg' : Config} (h : SameTables cfg cfg') (i : Nibble) (pa : PhysAddr) :
    activeSourceRequest cfg' i pa = activeSourceRequest cfg i pa := by
  rw [Machine.activeSourceRequest, h.activeSource, Machine.activeSourceRequest]

/-- The operation ends the same way in every state with these tables and this CTX_SELF_LA. -/
def FixedEnding (cfg : Config) (self : Option Nibble) (body : State → Result) : Prop :=
  ∃ e : Ending, ∀ s : State, SameTables cfg s.cfg → s.ctxSelfLa = self → body s = e.run s

section
variable (cfg : Config) (self : Option Nibble)

theorem vendorIdRequested_fixedEnding (sender : Nibble) : FixedEnding cfg self (vendorIdRequested sender) := by
  cases self with
  | none => exact ⟨.fault .unregistered, fun _ _ hself => vendorIdRequested_of_unregistered hself⟩
  | some self =>
    refine ⟨.send (featureAbortRequest self sender opGiveDeviceVendorId 0x00) fun ack => .dispatched (.replied ack),
      fun s _ hself => ?_⟩
    simp only [vendorIdRequested, hself]
    rfl

theorem dispatchMessage_fixedEnding (i : Nibble) (op : Byte) (ops : List Byte) :
    FixedEnding cfg self (dispatchMessage i op ops) := by
  by_cases habort : op = opFeatureAbort
  · subst habort
    exact ⟨.respond (.dispatched (featureAbortReceived ops)), fun s _ _ => dispatchMessage_featureAbort i ops s⟩
  by_cases hvendor : op = opGiveDeviceVendorId
  · subst hvendor
    exact vendorIdRequested_fixedEnding cfg self i
  by_cases hignored : op = cfg.opDeviceVendorId ∨ op = cfg.opVendorCommand
  · refine ⟨.respond (.dispatched .ignored), fun s h _ => dispatchMessage_of_ignored habort hvendor ?_⟩
    rwa [h.deviceVendorId, h.vendorCommand]
  · obtain ⟨hid, hcmd⟩ := not_or.mp hignored
    refine ⟨.respond (.dispatched .default), fun s h _ => dispatchMessage_of_default habort hvendor ?_ ?_⟩
    · rwa [h.deviceVendorId]
    · rwa [h.vendorCommand]

theorem dispatchResult_fixedEnding (dr : CarriedResult) : FixedEnding cfg self (dispatchResult dr) := by
  cases dr with
  | err k => exact ⟨.respond (.dispatched (.dropped k)), fun _ _ _ => rfl⟩
  | polling i d => exact ⟨.respond (.dispatched .default), fun _ _ _ => rfl⟩
  | message i d op ops => exact dispatchMessage_fixedEnding cfg self i op ops

/-- What DISPATCH reads of a decode result is without the description, so without any text (R71). -/
theorem SameTables.decodeBytes_carried {cfg cfg' : Config} (h : SameTables cfg cfg') (bytes : List Byte) :
    (decodeBytes cfg' bytes).map carried = (decodeBytes cfg bytes).map carried := by
  match bytes with
  | [] => rfl
  | [_] => rfl
  | _ :: _ :: _ =>
    simp only [decodeBytes, decodeMessage, h.classify, h.lengthClassOf]
    split_ifs <;> rfl

theorem handleReceived_fixedEnding (bytes : List Byte) : FixedEnding cfg self (handleReceived bytes) := by
  cases hdec : decodeBytes cfg bytes with
  | none =>
    refine ⟨.fault .lengthContract, fun s h _ => ?_⟩
    have hs := h.decodeBytes_carried bytes
    rw [hdec, Option.map_none, Option.map_eq_none_iff] at hs
    rw [handleReceived, hs]
    rfl
  | some r =>
    obtain ⟨e, he⟩ := dispatchResult_fixedEnding cfg self (carried r)
    refine ⟨e, fun s h hself => ?_⟩
    have hs := h.decodeBytes_carried bytes
    rw [hdec, Option.map_some, Option.map_eq_some_iff] at hs
    obtain ⟨r', hr', hcarried⟩ := hs
    rw [handleReceived_of_decoded hr', hcarried]
    exact he s h hself

theorem withArgument_fixedEnding {α : Type} (arg : Option α) {body : α → State → Result}
    (h : ∀ a, FixedEnding cfg self (body a)) : FixedEnding cfg self (withArgument arg body) := by
  cases arg with
  | none => exact ⟨.fault .illegalArgument, fun _ _ _ => rfl⟩
  | some a => exact h a

end

/-! ## Replaced texts and history -/

/-- The state with another configuration and another history. -/
def disguise (g : Config → Config) (m : List TransportEvent → List TransportEvent) (s : State) : State :=
  { s with cfg := g s.cfg, hist := m s.hist }

/-- The replaced history grows as the history does. -/
def KeepsNew (m : List TransportEvent → List TransportEvent) (hist : List TransportEvent) : Prop :=
  ∀ new, m (hist ++ new) = m hist ++ new

theorem KeepsNew.append {m : List TransportEvent → List TransportEvent} {hist : List TransportEvent}
    (h : KeepsNew m hist) (new : List TransportEvent) : KeepsNew m (hist ++ new) := fun more => by
  rw [List.append_assoc, h, h, List.append_assoc]

/-- The environment draws the same in both states, also for a reply after a received frame. -/
structure SameDraws (s s' : State) : Prop where
  register : ∀ la, drawRegister s' la = drawRegister s la
  physAddr : drawPhysAddr s' = drawPhysAddr s
  receive : drawReceive s' = drawReceive s
  transmit : ∀ req, drawTransmit s' req = drawTransmit s req
  replyToReceived : ∀ r req, drawTransmit (afterReceive r s') req = drawTransmit (afterReceive r s) req
  replyToDelivered : ∀ bytes req,
    drawTransmit (afterDelivery bytes s') req = drawTransmit (afterDelivery bytes s) req

theorem illegalCommand_disguise (g : Config → Config) (m : List TransportEvent → List TransportEvent) {s : State}
    (hs : s.fault = none) : illegalCommand (disguise g m s) = onNext (disguise g m) (illegalCommand s) := by
  rw [illegalCommand_of_healthy hs, illegalCommand_of_healthy (s := disguise g m s) hs]
  rfl

/-- A refused instruction reads neither the configuration nor the history (R248). -/
theorem exec_disguise_of_faulted (g : Config → Config) (m : List TransportEvent → List TransportEvent) {s : State}
    {c : FaultCode} (ins : Instr) (hs : s.fault = some c) :
    exec ins (disguise g m s) = onNext (disguise g m) (exec ins s) := by
  rw [exec_of_faulted ins hs, exec_of_faulted (s := disguise g m s) ins hs]
  rfl

section
variable {g : Config → Config} {m : List TransportEvent → List TransportEvent} {s : State}
  (hm : KeepsNew m s.hist)
include hm

theorem disguise_afterRegister (la : Nibble) (r : Answer Unit) :
    afterRegister la r (disguise g m s) = disguise g m (afterRegister la r s) := by
  simp only [afterRegister, disguise, hm _]

theorem disguise_afterPhysAddr (r : Answer PhysAddr) :
    afterPhysAddr r (disguise g m s) = disguise g m (afterPhysAddr r s) := by
  simp only [afterPhysAddr, disguise, hm _]

theorem disguise_afterTransmit (req : TxRequest) (r : Answer Bool) :
    afterTransmit req r (disguise g m s) = disguise g m (afterTransmit req r s) := by
  simp only [afterTransmit, disguise, hm _]

theorem disguise_afterReceive (r : Answer (List Byte)) :
    afterReceive r (disguise g m s) = disguise g m (afterReceive r s) := by
  simp only [afterReceive, disguise, hm _]

theorem disguise_afterDelivery (bytes : List Byte) :
    afterDelivery bytes (disguise g m s) = disguise g m (afterDelivery bytes s) := by
  simp only [afterDelivery, disguise, hm _]

theorem Ending.run_disguise (e : Ending)
    (hd : ∀ req, drawTransmit (disguise g m s) req = drawTransmit s req) :
    e.run (disguise g m s) = onNext (disguise g m) (e.run s) := by
  cases e with
  | respond r => rfl
  | fault c => rfl
  | send req k =>
    simp only [Ending.run, transmitOnce, callTransmit, hd]
    cases drawTransmit s req with
    | never => rfl
    | answered r =>
      rw [onDraw_answered, disguise_afterTransmit hm]
      rfl

theorem FixedEnding.body_disguise {body : State → Result} (h : FixedEnding s.cfg s.ctxSelfLa body)
    (hg : SameTables s.cfg (g s.cfg)) (hd : ∀ req, drawTransmit (disguise g m s) req = drawTransmit s req) :
    body (disguise g m s) = onNext (disguise g m) (body s) := by
  obtain ⟨e, he⟩ := h
  rw [he (disguise g m s) hg rfl, he s (.refl _) rfl, e.run_disguise hm hd]

/-! ## Instructions under replaced texts and history -/

variable (hd : SameDraws s (disguise g m s))
include hd

theorem exec_register_disguise (la : Nibble) (hs : s.fault = none) :
    exec (.register la) (disguise g m s) = onNext (disguise g m) (exec (.register la) s) := by
  have hs' : (disguise g m s).fault = none := hs
  cases hdraw : drawRegister s la with
  | never => rw [exec_register_of_never hs hdraw, exec_register_of_never hs' ((hd.register la).trans hdraw)]; rfl
  | answered r =>
    have hdraw' := (hd.register la).trans hdraw
    cases r with
    | ok =>
      rw [exec_register_of_ok hs hdraw, exec_register_of_ok hs' hdraw', disguise_afterRegister hm]
      rfl
    | err e =>
      rw [exec_register_of_err hs hdraw, exec_register_of_err hs' hdraw', disguise_afterRegister hm]
      rfl

theorem exec_getPhysAddr_disguise (hs : s.fault = none) :
    exec .getPhysAddr (disguise g m s) = onNext (disguise g m) (exec .getPhysAddr s) := by
  have hs' : (disguise g m s).fault = none := hs
  cases hdraw : drawPhysAddr s with
  | never => rw [exec_getPhysAddr_of_never hs hdraw, exec_getPhysAddr_of_never hs' (hd.physAddr.trans hdraw)]; rfl
  | answered r =>
    rw [exec_getPhysAddr_of_answered hs hdraw, exec_getPhysAddr_of_answered hs' (hd.physAddr.trans hdraw),
      disguise_afterPhysAddr hm]
    rfl

variable (hg : SameTables s.cfg (g s.cfg))
include hg

theorem receiveFrame_disguise (bytes : List Byte) (hs : s.fault = none) :
    receiveFrame bytes (disguise g m s) = onNext (disguise g m) (receiveFrame bytes s) := by
  rw [receiveFrame_of_healthy bytes hs, receiveFrame_of_healthy (s := disguise g m s) bytes hs,
    disguise_afterDelivery hm]
  refine (handleReceived_fixedEnding _ _ bytes).body_disguise (s := afterDelivery bytes s) (hm.append _) hg
    fun req => ?_
  rw [← disguise_afterDelivery hm, hd.replyToDelivered]

theorem exec_handleOne_disguise (hs : s.fault = none) :
    exec .handleOne (disguise g m s) = onNext (disguise g m) (exec .handleOne s) := by
  have hs' : (disguise g m s).fault = none := hs
  cases hrecv : drawReceive s with
  | never => rw [exec_handleOne_of_never hs hrecv, exec_handleOne_of_never hs' (hd.receive.trans hrecv)]; rfl
  | answered r =>
    have hrecv' := hd.receive.trans hrecv
    cases r with
    | err e =>
      rw [exec_handleOne_of_err hs hrecv, exec_handleOne_of_err hs' hrecv', disguise_afterReceive hm]
      rfl
    | ok bytes =>
      rw [exec_handleOne_of_ok hs hrecv, exec_handleOne_of_ok hs' hrecv', disguise_afterReceive hm]
      refine (handleReceived_fixedEnding _ _ bytes).body_disguise (s := afterReceive (.ok bytes) s) (hm.append _) hg
        fun req => ?_
      rw [← disguise_afterReceive hm, hd.replyToReceived]

theorem exec_frame_disguise {ins : Instr} {i d : Nibble} {op : Byte} {ops : List Byte}
    (hfields : messageFields s.cfg ins = some (i, d, op, ops)) (hs : s.fault = none) :
    exec ins (disguise g m s) = onNext (disguise g m) (exec ins s) := by
  have hfields' : messageFields (disguise g m s).cfg ins = some (i, d, op, ops) :=
    (hg.messageFields ins).trans hfields
  rw [exec_of_messageFields hfields, exec_of_messageFields hfields']
  exact receiveFrame_disguise hm hd hg _ hs

/-- An instruction that is no pure request does the same under replaced texts and history. -/
theorem exec_disguise {ins : Instr} (hpure : isPure ins = false) (hs : s.fault = none) :
    exec ins (disguise g m s) = onNext (disguise g m) (exec ins s) := by
  cases ins with
  | classify | describe | decode | buildPing | buildSimple | buildFeatureAbort | buildActiveSource => cases hpure
  | transmit req =>
    simp only [exec, execTransmit, serve_of_healthy hs, serve_of_healthy (s := disguise g m s) hs]
    refine (withArgument_fixedEnding _ _ _ fun r => ?_).body_disguise hm hg hd.transmit
    exact ⟨.send r .transmitted, fun _ _ _ => rfl⟩
  | dispatch dres =>
    simp only [exec, execDispatch, serve_of_healthy hs, serve_of_healthy (s := disguise g m s) hs]
    exact (withArgument_fixedEnding _ _ _ (dispatchResult_fixedEnding _ _)).body_disguise hm hg hd.transmit
  | handleOne => exact exec_handleOne_disguise hm hd hg hs
  | register la => exact exec_register_disguise hm hd la hs
  | getPhysAddr => exact exec_getPhysAddr_disguise hm hd hs
  | reservedCmd0 | reservedCmdD | reservedCmdE | reservedCmdF => exact illegalCommand_disguise g m hs
  | framePoll i d => exact receiveFrame_disguise hm hd hg _ hs
  | frameFeatureAbort | frameGiveDeviceVendorId | frameGetMenuLanguage | frameActiveSource | frameDeviceVendorId
  | frameVendorCommand | frameGiveDevicePowerStatus | frameMsgOther => exact exec_frame_disguise hm hd hg rfl hs

end

/-! ## Pure requests -/

/-- A pure request reads the configuration alone, so no history. -/
theorem exec_of_isPure_disguise_id {ins : Instr} {s : State} (m : List TransportEvent → List TransportEvent)
    (hpure : isPure ins = true) (hs : s.fault = none) :
    exec ins (disguise id m s) = onNext (disguise id m) (exec ins s) := by
  rcases exec_of_isPure hpure s.cfg with ⟨r, hr⟩ | ⟨c, hc⟩
  · rw [hr s hs rfl, hr (disguise id m s) hs rfl]
    rfl
  · rw [hc s hs rfl, hc (disguise id m s) hs rfl]
    rfl

/-- Of the pure requests only DESCRIBE and DECODE read a text. -/
theorem exec_of_isPure_disguise_texts {ins : Instr} {s : State} {g : Config → Config}
    (m : List TransportEvent → List TransportEvent) (hpure : isPure ins = true) (hdesc : describes ins = false)
    (hs : s.fault = none) (hg : SameTables s.cfg (g s.cfg)) :
    exec ins (disguise g m s) = onNext (disguise g m) (exec ins s) := by
  have hs' : (disguise g m s).fault = none := hs
  cases ins with
  | describe | decode => cases hdesc
  | classify op =>
    rw [exec_classify_of_healthy op hs, exec_classify_of_healthy op hs']
    exact congrArg (fun p => Host.Outcome.next (respond (.classified p) _)) (hg.classify op)
  | buildPing i d =>
    rw [exec_buildPing_of_healthy i d hs, exec_buildPing_of_healthy i d hs']
    rfl
  | buildSimple i d op =>
    rw [exec_buildSimple_of_healthy i d op hs, exec_buildSimple_of_healthy i d op hs']
    rfl
  | buildFeatureAbort i d aop reason =>
    rcases Nat.lt_or_ge 4 reason.toNat with h | h
    · rw [exec_buildFeatureAbort_of_unknown i d aop hs h, exec_buildFeatureAbort_of_unknown i d aop hs' h]
      rfl
    · rw [exec_buildFeatureAbort_of_known i d aop hs h, exec_buildFeatureAbort_of_known i d aop hs' h]
      rfl
  | buildActiveSource i pa =>
    rw [exec_buildActiveSource_of_healthy i pa hs, exec_buildActiveSource_of_healthy i pa hs']
    exact congrArg (fun req => Host.Outcome.next (respond (.built req) _)) (hg.activeSourceRequest i pa)
  | _ => cases hpure

/-! ## Scripted draws -/

theorem nextDraw_of_ne_nil {α : Type} {script : List (Draw α)} (h : script ≠ []) (free free' : Draw α) :
    nextDraw script free = nextDraw script free' := by
  cases script with
  | nil => exact absurd rfl h
  | cons d rest => rfl

/-- Scripted draws come before any that could read the history (R262). -/
theorem sameDraws_of_scripted {s : State} (h : scripted s.env) (g : Config → Config)
    (m : List TransportEvent → List TransportEvent) : SameDraws s (disguise g m s) := by
  obtain ⟨hregister, hphys, htransmit, hreceive⟩ := h
  exact ⟨fun _ => nextDraw_of_ne_nil hregister _ _, nextDraw_of_ne_nil hphys _ _, nextDraw_of_ne_nil hreceive _ _,
    fun _ => nextDraw_of_ne_nil htransmit _ _, fun _ _ => nextDraw_of_ne_nil htransmit _ _,
    fun _ _ => nextDraw_of_ne_nil htransmit _ _⟩

/-! ## A replaced history -/

/-- The history with the events of `old`, which come first, replaced. -/
def replacePast (old new hist : List TransportEvent) : List TransportEvent := new ++ hist.drop old.length

theorem replacePast_append (old new more : List TransportEvent) :
    replacePast old new (old ++ more) = new ++ more := by
  rw [replacePast, List.drop_left]

theorem replacePast_self (old new : List TransportEvent) : replacePast old new old = new := by
  rw [replacePast, List.drop_length, List.append_nil]

theorem exec_replacePast {ins : Instr} {s : State} (h : List TransportEvent) (hscripted : scripted s.env) :
    exec ins { s with hist := h } = onNext (disguise id (replacePast s.hist h)) (exec ins s) := by
  have hpast : { s with hist := h } = disguise id (replacePast s.hist h) s := by
    rw [disguise, replacePast_self]
    rfl
  have hm : KeepsNew (replacePast s.hist h) s.hist := fun new => by rw [replacePast_append, replacePast_self]
  rw [hpast]
  cases hs : s.fault with
  | some c => exact exec_disguise_of_faulted _ _ ins hs
  | none =>
    cases hpure : isPure ins with
    | true => exact exec_of_isPure_disguise_id _ hpure hs
    | false => exact exec_disguise hm (sameDraws_of_scripted hscripted _ _) (.refl _) hpure hs

/-! ## Replaced texts -/

/-- The configuration with other display texts. -/
def retext (table : List (Byte × DescText)) (sentinel : DescText) (reasons : ReasonTexts) (cfg : Config) : Config :=
  { cfg with descriptionTable := table, sentinelText := sentinel, reasonTexts := reasons }

theorem sameTables_retext (table : List (Byte × DescText)) (sentinel : DescText) (reasons : ReasonTexts)
    (cfg : Config) : SameTables cfg (retext table sentinel reasons cfg) := ⟨rfl, rfl, rfl, rfl, rfl, rfl⟩

theorem withTexts_eq_disguise (table : List (Byte × DescText)) (sentinel : DescText) (reasons : ReasonTexts) :
    withTexts table sentinel reasons = disguise (retext table sentinel reasons) id := rfl

/-- No draw reads the configuration (R262). -/
theorem sameDraws_of_id (g : Config → Config) (s : State) : SameDraws s (disguise g id s) :=
  ⟨fun _ => rfl, rfl, rfl, fun _ => rfl, fun _ _ => rfl, fun _ _ => rfl⟩

/-! ## The obligations -/

/-- Settles O55: with scripted draws an instruction commutes with replacing the history it appends to. -/
theorem resultsDoNotDependOnHistory : Obligations.ResultsDoNotDependOnHistory := by
  intro i s h hscripted
  have hexec := exec_replacePast (ins := i) h hscripted
  refine ⟨fun r hr => ?_, fun t ht => ?_⟩
  · rw [hexec, hr]
    rfl
  · obtain ⟨new, hnew⟩ := historyOnlyGrows i s t ht
    refine ⟨new, hnew, ?_⟩
    rw [hexec, ht, onNext, disguise, hnew, replacePast_append]
    rfl

/-- Settles O56: replacing the texts keeps the tables and the draws. -/
theorem textsNeverSteer : Obligations.TextsNeverSteer := by
  intro i s table sentinel reasons hdesc
  have hg := sameTables_retext table sentinel reasons s.cfg
  rw [withTexts_eq_disguise]
  cases hs : s.fault with
  | some c => exact exec_disguise_of_faulted _ _ i hs
  | none =>
    cases hpure : isPure i with
    | true => exact exec_of_isPure_disguise_texts id hpure hdesc hs hg
    | false => exact exec_disguise (fun _ => rfl) (sameDraws_of_id _ s) hg hpure hs

end Sys2Proof.Machine

/-! The destination (spec/43_dispatch.md R203): routing a message never reads it, so only the Receive event of an
accepted frame tells two destinations apart. -/

namespace Sys2Proof.Machine

/-- The states differ at most where no reaction shows: in the response before, the events that are no Transmit, the
inputs and the environment's bookkeeping. -/
structure SameStanding (u u' : State) : Prop where
  cfg : u.cfg = u'.cfg
  fault : u.fault = u'.fault
  self : u.ctxSelfLa = u'.ctxSelfLa
  sent : u.hist.filter isTransmit = u'.hist.filter isTransmit

theorem SameStanding.sameReaction_noResponse {u u' : State} (h : SameStanding u u') :
    sameReaction (.next (noResponse u)) (.next (noResponse u')) := ⟨rfl, h.fault, h.self, h.sent⟩

theorem SameStanding.sameReaction_run {u u' : State} (h : SameStanding u u') (e : Ending)
    (hd : ∀ req, drawTransmit u req = drawTransmit u' req) : sameReaction (e.run u) (e.run u') := by
  cases e with
  | respond r => exact ⟨rfl, h.fault, h.self, h.sent⟩
  | fault c => exact ⟨rfl, rfl, h.self, h.sent⟩
  | send req k =>
    simp only [Ending.run, transmitOnce, callTransmit, hd req]
    cases drawTransmit u' req with
    | never => exact rfl
    | answered r => exact ⟨rfl, h.fault, h.self, by simp [h.sent]⟩

theorem SameStanding.sameReaction_dispatchMessage {u u' : State} (h : SameStanding u u')
    (hd : ∀ req, drawTransmit u req = drawTransmit u' req) (i : Nibble) (op : Byte) (ops : List Byte) :
    sameReaction (dispatchMessage i op ops u) (dispatchMessage i op ops u') := by
  obtain ⟨e, he⟩ := dispatchMessage_fixedEnding u'.cfg u'.ctxSelfLa i op ops
  rw [he u (h.cfg ▸ .refl _) h.self, he u' (.refl _) rfl]
  exact h.sameReaction_run e hd

/-- A message that no bundle can carry faults, and any other is routed, both without its destination. -/
theorem exec_dispatch_message_congr (i d d' : Nibble) (op : Byte) (ops : List Byte) (s : State) :
    exec (.dispatch (some (.message i d op ops))) s = exec (.dispatch (some (.message i d' op ops))) s := by
  cases hs : s.fault with
  | some c => rw [exec_of_faulted _ hs, exec_of_faulted _ hs]
  | none =>
    cases hfit : operandsFit ops with
    | true =>
      have hlen := operandsFit_eq_true.mp hfit
      rw [exec_dispatch_message_of_healthy i d op hs hlen, exec_dispatch_message_of_healthy i d' op hs hlen]
    | false =>
      have hmalformed : ∀ dest, CarriedResult.wellFormed (.message i dest op ops) = false := fun _ => hfit
      rw [exec_dispatch_of_malformed hs (argumentIf_of_not_ok (hmalformed d)),
        exec_dispatch_of_malformed hs (argumentIf_of_not_ok (hmalformed d'))]

/-- The state with this frame as the next answer of the transport's receive. -/
def scriptReceive (bytes : List Byte) (s : State) : State :=
  { s with env := { s.env with receive := .answered (.ok bytes) :: s.env.receive } }

theorem filter_isTransmit_append_receive (hist : List TransportEvent) (r : Answer (List Byte)) :
    (hist ++ [TransportEvent.receive r]).filter isTransmit = hist.filter isTransmit := by
  rw [List.filter_append]
  exact List.append_nil _

theorem sameStanding_afterReceive (bytes bytes' : List Byte) (s : State) :
    SameStanding (afterReceive (.ok bytes) (scriptReceive bytes s))
      (afterReceive (.ok bytes') (scriptReceive bytes' s)) :=
  ⟨rfl, rfl, rfl,
    (filter_isTransmit_append_receive s.hist _).trans (filter_isTransmit_append_receive s.hist _).symm⟩

theorem sameStanding_afterDelivery (bytes bytes' : List Byte) (s : State) :
    SameStanding (afterDelivery bytes s) (afterDelivery bytes' s) :=
  ⟨rfl, rfl, rfl,
    (filter_isTransmit_append_receive s.hist _).trans (filter_isTransmit_append_receive s.hist _).symm⟩

theorem exec_handleOne_of_accepted {i d : Nibble} {op : Byte} {ops : List Byte} {s : State} (hs : s.fault = none)
    (h : accepted s.cfg d op ops.length) :
    exec .handleOne (scriptReceive (header i d :: op :: ops) s) =
      dispatchMessage i op ops
        (afterReceive (.ok (header i d :: op :: ops)) (scriptReceive (header i d :: op :: ops) s)) := by
  rw [exec_handleOne_of_ok (s := scriptReceive _ s) hs rfl]
  exact handleReceived_of_accepted h

/-! ## The obligation -/

/-- Settles O57: after either frame the two states have the same standing, and the routing does not read the
destination. -/
theorem noDestinationFilter : Obligations.NoDestinationFilter := by
  refine fun i d d' op ops s => ⟨exec_dispatch_message_congr i d d' op ops s, fun hacc hacc' => ⟨?handleOne, ?frame⟩⟩
  case handleOne =>
    intro v v' hv hv' hd
    obtain rfl : v = scriptReceive (header i d :: op :: ops) s := hv
    obtain rfl : v' = scriptReceive (header i d' :: op :: ops) s := hv'
    cases hs : s.fault with
    | some c =>
      rw [exec_of_faulted (s := scriptReceive _ s) _ hs, exec_of_faulted (s := scriptReceive _ s) _ hs]
      exact SameStanding.sameReaction_noResponse ⟨rfl, rfl, rfl, rfl⟩
    | none =>
      rw [exec_handleOne_of_accepted hs hacc, exec_handleOne_of_accepted hs hacc']
      exact (sameStanding_afterReceive _ _ s).sameReaction_dispatchMessage hd i op ops
  case frame =>
    intro ins ins' hfields hfields' hd
    cases hs : s.fault with
    | some c =>
      rw [exec_of_faulted _ hs, exec_of_faulted _ hs]
      exact SameStanding.sameReaction_noResponse ⟨rfl, rfl, rfl, rfl⟩
    | none =>
      rw [exec_frame_of_accepted hs hfields hacc, exec_frame_of_accepted hs hfields' hacc']
      exact (sameStanding_afterDelivery _ _ s).sameReaction_dispatchMessage hd i op ops

end Sys2Proof.Machine
